-- ==== Sys2Proof/Word.lean ====
section
/-! DEFINITION. The word types of RTCC: bytes of the serial stream, 32-bit registers and command words, and
the 41-bit bus word (spec/20_memory.md R81, R83; spec/30_encoding.md R110). -/
namespace Sys2Proof

/-- A byte is 8 bits (20_memory.md R81). -/
abbrev Byte := BitVec 8

/-- A register, a command word (format H) or a stimulus word (format S): 32 bits (30_encoding.md R110). -/
abbrev Word := BitVec 32

/-- One HOST bus transaction, format B: 41 bits (30_encoding.md R111). -/
abbrev BusWord := BitVec 41

end Sys2Proof
end

