-- ==== Sys2Proof/Config.lean ====
section
/-! DEFINITION. The implementation parameters of spec/00_scope.md R11 and the constants R12 derives from them.
They are fixed for one machine: State carries them in a field that no step writes (assumption 1), so that what is
proved of every state is proved for every choice of the OPEN parameters. -/
namespace Sys2Proof

/-- The parameters of 00_scope.md R11 that some rule reads. The two buffer capacities are powers of two by
construction: `rxBits` and `txBits` are their logarithms, the widths R23 gives the indices. -/
structure Params where
  /-- N_AXES, the number of axes. -/
  nAxes : Nat
  /-- log2 of RX_CAP. -/
  rxBits : Nat
  /-- log2 of TX_CAP. -/
  txBits : Nat
  /-- CAN_BYTE, the sentinel RXCANCEL writes. -/
  canByte : Byte
  /-- TOOLACK_BYTE, the sentinel the receive handler recognises. -/
  toolackByte : Byte
  /-- DEBOUNCE_TICKS, 8 bits wide as db.cnt is (10_state.md R38; assumption 25). -/
  debounceTicks : BitVec 8
  /-- PT_TICKS_PER_US, pulse-timer ticks per microsecond. -/
  ptTicksPerUs : Nat
  /-- F_PWM, the spindle PWM counter clock in Hz. -/
  fPwm : Nat
  deriving DecidableEq, Repr

namespace Params

/-- RX_CAP, the receive buffer's capacity in bytes. -/
def rxCap (p : Params) : Nat := 2 ^ p.rxBits

/-- TX_CAP, the transmit buffer's capacity in bytes. -/
def txCap (p : Params) : Nat := 2 ^ p.txBits

/-- RXM = RX_CAP - 1 (00_scope.md R12). -/
def rxMask (p : Params) : Nat := p.rxCap - 1

/-- TXM = TX_CAP - 1 (00_scope.md R12). -/
def txMask (p : Params) : Nat := p.txCap - 1

/-- AXM = 2^N_AXES - 1 (00_scope.md R12), on the 8 bits that the largest N_AXES takes. -/
def axisMask (p : Params) : BitVec 8 := BitVec.ofNat 8 (2 ^ p.nAxes - 1)

/-- The values 00_scope.md R11 fixes (N_AXES, CAN_BYTE, TOOLACK_BYTE, DEBOUNCE_TICKS) and, for the parameters it
leaves OPEN, the values of its "test" column (DESIGN CHOICE, assumption 2). The two sentinels are PRESUMED: R11
marks them "from general knowledge" (assumption 19). -/
def standard : Params where
  nAxes := 3
  rxBits := 3
  txBits := 2
  canByte := 0x18
  toolackByte := 0xA3
  debounceTicks := 3
  ptTicksPerUs := 1
  fPwm := 1000000

end Params
end Sys2Proof
end

