-- ==== Sys2Proof/Syntax.lean ====
section
/-! DEFINITION. The instructions of RTCC: the 37 rows of spec/opcode_table.json, one constructor each. Operand
fields and their widths are those of spec/30_encoding.md R111, R112, R115 and R117. -/
namespace Sys2Proof

/-- One atomic step of one agent (00_scope.md R7, R9): a HOST bus transaction, a HOST command (a `WR` of its word to
CMD), or a stimulus of another agent. The draws `handled` and `cont` (R10) are operands: a model quantifies over
them. -/
inductive Instr where
  /-- RD: bus read of the register at `addr`; `wdata` is 0 and ignored (30_encoding.md R111). -/
  | rd (addr : Byte) (wdata : Word)
  /-- WR: bus write of `wdata` to the register at `addr`. -/
  | wr (addr : Byte) (wdata : Word)
  | nop
  | rxfree
  | rxflush
  | rxcancel
  /-- PUTBYTE of the byte `c`. -/
  | putbyte (c : Byte)
  | getbyte
  /-- SUSPEND: `f` is the argument of `suspendInput`. -/
  | suspend (f : Bool)
  | rxovfclr
  /-- PULSE_START: direction and step patterns, bit i for axis i. -/
  | pulseStart (dir step : Byte)
  | stepWake
  | stepIdle
  /-- STEP_CYCLES: its operand is ARG0. -/
  | stepCycles
  | getLimits
  | getControl
  | limitsEnable (f : Bool)
  | getProbe
  /-- COMPUTE_PWM: override percent; the rpm is ARG0. -/
  | computePwm (ovr : Byte)
  | setSpeed (duty : BitVec 16)
  /-- SET_STATE: direction, enable, override percent; the rpm is ARG0. -/
  | setState (ccw enable : Bool) (ovr : Byte)
  | spnGetState
  | cfgApply
  | coolantSet (mist flood : Bool)
  | coolantGet
  /-- DELAY_MS: callback wanted, milliseconds. -/
  | delayMs (cb : Bool) (ms : BitVec 16)
  /-- @RX_ARRIVE: the byte `b` arrives; `handled` is the interceptor's answer. -/
  | rxArrive (handled : Bool) (b : Byte)
  | lineTake
  | txIrq
  /-- @PUT_RETRY: `cont` is the blocking callback's answer. -/
  | putRetry (cont : Bool)
  | ptTick
  | dbTick
  | limIn (float level : Byte)
  | ctlIn (float level : BitVec 4)
  | prbIn (float level : Bool)
  | stTick
  | msTick
  deriving DecidableEq, Repr

end Sys2Proof
end

