-- ==== Sys2Proof/Decode.lean ====
section
/-! DEFINITION. The decoder and the encoder. The decoder is the rule spec/30_encoding.md R113 states: find the row of
the table whose `match` the masked word equals. The two tables are R114 (commands) and R117 (stimuli), row for row;
operand fields are those of R112 and R117, taken as they stand (R115). -/
namespace Sys2Proof

/-- What stands at RTCC's ports for one step: a format B bus word, or a 32-bit word of format H or S. The length is
known without looking at the word (30_encoding.md R110). -/
inductive Frame where
  | bus (w : BusWord)
  | word (w : Word)
  deriving DecidableEq, Repr

/-- Why a frame decodes to no instruction. -/
inductive DecodeError where
  /-- A word below 0x80000000 that no row of R114 matches: as a command it is illegal (R118). -/
  | illegalCommand
  /-- A word from 0x80000000 up that no row of R117 matches: not a step of any agent (93 U15). -/
  | noSuchStimulus
  deriving DecidableEq, Repr

/-- One row of the encoding tables: the fixed bits and what the operand fields make of the word. -/
structure Row where
  pattern : Word
  mask : Word
  build : Word → Instr

/-- `(w & row.mask) == row.match` (30_encoding.md R113). -/
def Row.hits (r : Row) (w : Word) : Bool := (w &&& r.mask) == r.pattern

/-- Bits 7:0, the operand of sub-format H8 and the low byte of HP and of the stimuli (30_encoding.md R112, R117). -/
def lowByte (w : Word) : Byte := w.extractLsb' 0 8

/-- Bits 15:8, `dir` of HP and `float` of @LIM_IN. -/
def secondByte (w : Word) : Byte := w.extractLsb' 8 8

/-- Bits 15:0, `duty` of H16 and `ms` of HD. -/
def lowHalf (w : Word) : BitVec 16 := w.extractLsb' 0 16

/-- Commands, by `op` (30_encoding.md R114). -/
def commandRows : List Row :=
  [ ⟨0x00000000, 0xFFFFFFFF, fun _ => .nop⟩,
    ⟨0x01000000, 0xFFFFFFFF, fun _ => .rxfree⟩,
    ⟨0x02000000, 0xFFFFFFFF, fun _ => .rxflush⟩,
    ⟨0x03000000, 0xFFFFFFFF, fun _ => .rxcancel⟩,
    ⟨0x04000000, 0xFFFFFF00, fun w => .putbyte (lowByte w)⟩,
    ⟨0x05000000, 0xFFFFFFFF, fun _ => .getbyte⟩,
    ⟨0x06000000, 0xFFFFFFFE, fun w => .suspend (w.getLsbD 0)⟩,
    ⟨0x07000000, 0xFFFFFFFF, fun _ => .rxovfclr⟩ ] ++
  [ ⟨0x10000000, 0xFFFF0000, fun w => .pulseStart (secondByte w) (lowByte w)⟩,
    ⟨0x11000000, 0xFFFFFFFF, fun _ => .stepWake⟩,
    ⟨0x12000000, 0xFFFFFFFF, fun _ => .stepIdle⟩,
    ⟨0x13000000, 0xFFFFFFFF, fun _ => .stepCycles⟩,
    ⟨0x20000000, 0xFFFFFFFF, fun _ => .getLimits⟩,
    ⟨0x21000000, 0xFFFFFFFF, fun _ => .getControl⟩,
    ⟨0x22000000, 0xFFFFFFFE, fun w => .limitsEnable (w.getLsbD 0)⟩,
    ⟨0x23000000, 0xFFFFFFFF, fun _ => .getProbe⟩ ] ++
  [ ⟨0x30000000, 0xFFFFFF00, fun w => .computePwm (lowByte w)⟩,
    ⟨0x31000000, 0xFFFF0000, fun w => .setSpeed (lowHalf w)⟩,
    ⟨0x32000000, 0xFFFFFC00, fun w => .setState (w.getLsbD 9) (w.getLsbD 8) (lowByte w)⟩,
    ⟨0x33000000, 0xFFFFFFFF, fun _ => .spnGetState⟩,
    ⟨0x40000000, 0xFFFFFFFF, fun _ => .cfgApply⟩,
    ⟨0x41000000, 0xFFFFFFFC, fun w => .coolantSet (w.getLsbD 1) (w.getLsbD 0)⟩,
    ⟨0x42000000, 0xFFFFFFFF, fun _ => .coolantGet⟩,
    ⟨0x43000000, 0xFFFE0000, fun w => .delayMs (w.getLsbD 16) (lowHalf w)⟩ ]

/-- Stimuli, by `ev` (30_encoding.md R117). -/
def stimulusRows : List Row :=
  [ ⟨0x80000000, 0xFFFFFE00, fun w => .rxArrive (w.getLsbD 8) (lowByte w)⟩,
    ⟨0x81000000, 0xFFFFFFFF, fun _ => .lineTake⟩,
    ⟨0x82000000, 0xFFFFFFFF, fun _ => .txIrq⟩,
    ⟨0x83000000, 0xFFFFFFFE, fun w => .putRetry (w.getLsbD 0)⟩,
    ⟨0x84000000, 0xFFFFFFFF, fun _ => .ptTick⟩,
    ⟨0x85000000, 0xFFFFFFFF, fun _ => .dbTick⟩,
    ⟨0x86000000, 0xFFFF0000, fun w => .limIn (secondByte w) (lowByte w)⟩ ] ++
  [ ⟨0x87000000, 0xFFFFF0F0, fun w => .ctlIn (w.extractLsb' 8 4) (w.extractLsb' 0 4)⟩,
    ⟨0x88000000, 0xFFFFFEFE, fun w => .prbIn (w.getLsbD 8) (w.getLsbD 0)⟩,
    ⟨0x89000000, 0xFFFFFFFF, fun _ => .stTick⟩,
    ⟨0x8A000000, 0xFFFFFFFF, fun _ => .msTick⟩ ]

/-- The command a word written to CMD encodes, if any (30_encoding.md R113, R118). -/
def decodeCommand (w : Word) : Option Instr :=
  (commandRows.find? (·.hits w)).map (·.build w)

/-- The stimulus a word encodes, if any (30_encoding.md R117). -/
def decodeStimulus (w : Word) : Option Instr :=
  (stimulusRows.find? (·.hits w)).map (·.build w)

/-- A 32-bit word: bits 31:24 from 0x80 up are stimuli, below are commands (30_encoding.md R116). -/
def decodeWord (w : Word) : Except DecodeError Instr :=
  if w.getLsbD 31 then
    match decodeStimulus w with
    | some i => .ok i
    | none => .error .noSuchStimulus
  else
    match decodeCommand w with
    | some i => .ok i
    | none => .error .illegalCommand

/-- A bus word: `rw` bit 40, `addr` bits 39:32, `wdata` bits 31:0 (30_encoding.md R111). -/
def decodeBus (w : BusWord) : Instr :=
  if w.getLsbD 40 then .wr (w.extractLsb' 32 8) (w.extractLsb' 0 32)
  else .rd (w.extractLsb' 32 8) (w.extractLsb' 0 32)

/-- Decoding is total and depends on no state (30_encoding.md R118, R119). -/
def decode : Frame → Except DecodeError Instr
  | .bus w => .ok (decodeBus w)
  | .word w => decodeWord w

/-- The frame of the first `nbits` bits `w`: 32 bits or fewer are a word, up to 48 (41 in whole bytes) a bus word;
a number that has a bit above the format's length is no frame. -/
def frameOf (nbits w : Nat) : Option Frame :=
  if nbits ≤ 32 then
    if w < 2 ^ 32 then some (.word (BitVec.ofNat 32 w)) else none
  else if nbits ≤ 48 ∧ w < 2 ^ 41 then some (.bus (BitVec.ofNat 41 w))
  else none

/-- What the decoder makes of an instruction given as a number, as spec/opcode_table.json numbers bits. -/
def decodeTableWord (nbits w : Nat) : Option Instr :=
  match frameOf nbits w with
  | none => none
  | some f =>
    match decode f with
    | .ok i => some i
    | .error _ => none

/-! ## The encoder -/

/-- A 32-bit word with `op` (or `ev`) in bits 31:24 and the number `lo` in bits 23:0. -/
def wordOf (op lo : Nat) : Word := BitVec.ofNat 32 (op * 2 ^ 24 + lo)

/-- A bus word from its three fields (30_encoding.md R111). -/
def busOf (rw : Bool) (addr : Byte) (wdata : Word) : BusWord :=
  BitVec.ofNat 41 (rw.toNat * 2 ^ 40 + addr.toNat * 2 ^ 32 + wdata.toNat)

/-- The frame of an instruction, from R111, R112, R114 and R117 of 30_encoding.md. -/
def encode : Instr → Frame
  | .rd addr wdata => .bus (busOf false addr wdata)
  | .wr addr wdata => .bus (busOf true addr wdata)
  | .nop => .word (wordOf 0x00 0)
  | .rxfree => .word (wordOf 0x01 0)
  | .rxflush => .word (wordOf 0x02 0)
  | .rxcancel => .word (wordOf 0x03 0)
  | .putbyte c => .word (wordOf 0x04 c.toNat)
  | .getbyte => .word (wordOf 0x05 0)
  | .suspend f => .word (wordOf 0x06 f.toNat)
  | .rxovfclr => .word (wordOf 0x07 0)
  | .pulseStart dir step => .word (wordOf 0x10 (dir.toNat * 2 ^ 8 + step.toNat))
  | .stepWake => .word (wordOf 0x11 0)
  | .stepIdle => .word (wordOf 0x12 0)
  | .stepCycles => .word (wordOf 0x13 0)
  | .getLimits => .word (wordOf 0x20 0)
  | .getControl => .word (wordOf 0x21 0)
  | .limitsEnable f => .word (wordOf 0x22 f.toNat)
  | .getProbe => .word (wordOf 0x23 0)
  | .computePwm ovr => .word (wordOf 0x30 ovr.toNat)
  | .setSpeed duty => .word (wordOf 0x31 duty.toNat)
  | .setState ccw enable ovr =>
      .word (wordOf 0x32 (ccw.toNat * 2 ^ 9 + enable.toNat * 2 ^ 8 + ovr.toNat))
  | .spnGetState => .word (wordOf 0x33 0)
  | .cfgApply => .word (wordOf 0x40 0)
  | .coolantSet mist flood => .word (wordOf 0x41 (mist.toNat * 2 + flood.toNat))
  | .coolantGet => .word (wordOf 0x42 0)
  | .delayMs cb ms => .word (wordOf 0x43 (cb.toNat * 2 ^ 16 + ms.toNat))
  | .rxArrive handled b => .word (wordOf 0x80 (handled.toNat * 2 ^ 8 + b.toNat))
  | .lineTake => .word (wordOf 0x81 0)
  | .txIrq => .word (wordOf 0x82 0)
  | .putRetry cont => .word (wordOf 0x83 cont.toNat)
  | .ptTick => .word (wordOf 0x84 0)
  | .dbTick => .word (wordOf 0x85 0)
  | .limIn float level => .word (wordOf 0x86 (float.toNat * 2 ^ 8 + level.toNat))
  | .ctlIn float level => .word (wordOf 0x87 (float.toNat * 2 ^ 8 + level.toNat))
  | .prbIn float level => .word (wordOf 0x88 (float.toNat * 2 ^ 8 + level.toNat))
  | .stTick => .word (wordOf 0x89 0)
  | .msTick => .word (wordOf 0x8A 0)

end Sys2Proof
end

