-- ==== Sys2Proof/Machine/State.lean ====
section
/-! DEFINITION. The state of RTCC: the tuple of spec/10_state.md R22, field by field, as plain data, with the
inputs still to come, and its value after reset (R65). -/
namespace Sys2Proof.Machine

/-! ## Named values -/

/-- `pe.state` (10_state.md R32). The code 3 is never written, so it is no value (93 U17). -/
inductive PulseState where
  | idle
  | waitDelay
  | pulsing
  deriving DecidableEq, Repr

/-- `db.state` (10_state.md R38). -/
inductive DebounceState where
  | idle
  | armed
  | counting
  deriving DecidableEq, Repr

/-- What drives an input pin: 0, 1 or nothing (10_state.md R36). -/
inductive Drive where
  | low
  | high
  | float
  deriving DecidableEq, Repr

/-- A delivered callback with its argument (60_exceptions.md R296 to R302). -/
inductive Callback where
  | step
  | limit (state : BitVec 8)
  | control (state : BitVec 4)
  | delay
  | rt (b : Byte) (handled : Bool)
  | block (cont : Bool)
  deriving DecidableEq, Repr

/-- The error causes of 60_exceptions.md R290, in the order of their codes. -/
inductive Cause where
  | illegalCmd
  | busy
  | notConfigured
  | cfgInvalid
  | cfgBusy
  | pulseOverrun
  | cancelInBackup
  | bus
  | txUnderrun
  | txAbort
  deriving DecidableEq, Repr

/-- The agents that can be not enabled (00_scope.md R9). -/
inductive Waiter where
  | transmitLine
  | transmitHandler
  | putByteBlocker
  deriving DecidableEq, Repr

/-- Why the machine stops with a fault. -/
inductive Fault where
  /-- Raised by the meanings of @LINE_TAKE, @TX_IRQ and @PUT_RETRY when the agent's enabling condition
  (40_serial.md R152, R151, R146) does not hold: the spec says that it is then not a step (95 V-TX-7; assumption 7).
  Safe: the model stops where the hardware has no such step. -/
  | notEnabled (agent : Waiter)
  deriving DecidableEq, Repr

/-- Why the machine refuses an input. -/
inductive Refusal where
  /-- An instruction that has no meaning yet; raised by exec's arms only. Safe. -/
  | notModelled (mnemonic : String)
  /-- Raised by the step for a 32-bit word from 0x80000000 up that no row of 30_encoding.md R117 matches: it is
  a step of no agent (93 U15; assumption 8). Safe. -/
  | noSuchStimulus
  deriving DecidableEq, Repr

/-! ## The parts of the state -/

/-- A byte array of one of the ring buffers (20_memory.md R80): cells at rising indices, none holding the value an
unlisted index reads as (assumption 15). -/
abbrev Memory := List Host.Cell

/-- The receive buffer and its flags (10_state.md R23, R26). -/
structure RxBuffer where
  data : Memory
  head : Nat
  tail : Nat
  ovf : Bool
  bkActive : Bool
  suspended : Bool
  deriving DecidableEq, Repr

/-- The backup snapshot (10_state.md R25). -/
structure Backup where
  data : Memory
  head : Nat
  tail : Nat
  deriving DecidableEq, Repr

/-- The transmit buffer, its interrupt enable and the put-byte wait (10_state.md R27, R28, R30, R31). -/
structure TxBuffer where
  data : Memory
  head : Nat
  tail : Nat
  irqEn : Bool
  blocked : Bool
  pend : Byte
  ovf : Bool
  deriving DecidableEq, Repr

/-- The pulse engine (10_state.md R32, R33): logical step and direction patterns, and `pe.next` as `stash`. -/
structure PulseEngine where
  state : PulseState
  stepL : BitVec 8
  dirL : BitVec 8
  stash : BitVec 8
  deriving DecidableEq, Repr

/-- The pulse timer (10_state.md R34). -/
structure PulseTimer where
  run : Bool
  cnt : Word
  cmp : Word
  deriving DecidableEq, Repr

/-- The step cycle timer (10_state.md R35). -/
structure StepTimer where
  en : Bool
  period : Word
  cnt : Word
  deriving DecidableEq, Repr

/-- The debounce machine (10_state.md R38). -/
structure Debounce where
  state : DebounceState
  cnt : BitVec 8
  deriving DecidableEq, Repr

/-- The spindle fields of 10_state.md R40 that belong to no register. -/
structure Spindle where
  enabled : Bool
  ccw : Bool
  applied : BitVec 16
  effRpm : Word
  deriving DecidableEq, Repr

/-- The PWM output (10_state.md R40). -/
structure PwmOutput where
  en : Bool
  duty : BitVec 16
  deriving DecidableEq, Repr

/-- The derived record `pw.*` (10_state.md R41), with the source's names for its values. -/
structure SpindlePwm where
  period : BitVec 16
  offValue : BitVec 16
  minValue : BitVec 16
  maxValue : BitVec 16
  gnum : BitVec 16
  gden : Word
  deriving DecidableEq, Repr

/-- The coolant outputs (10_state.md R42). -/
structure Coolant where
  flood : Bool
  mist : Bool
  deriving DecidableEq, Repr

/-- The millisecond delay timer (10_state.md R42). -/
structure DelayTimer where
  cnt : BitVec 16
  cb : Bool
  deriving DecidableEq, Repr

/-- The active configuration `ac.*` (10_state.md R43). Per-axis fields have the width of the largest N_AXES
(assumption 20). -/
structure ActiveConfig where
  stepInv : BitVec 8
  dirInv : BitVec 8
  limInv : BitVec 8
  limPull : BitVec 8
  ctlInv : BitVec 4
  ctlPull : BitVec 4
  prbInv : Bool
  prbPull : Bool
  spnInv : BitVec 3
  coolInv : BitVec 2
  widthTicks : Word
  delayTicks : Word
  delayed : Bool
  rpmMin : Word
  rpmMax : Word
  offOnZero : Bool
  swDebounce : Bool
  varSpeed : Bool
  amass : BitVec 2
  deriving DecidableEq, Repr

/-- The shadow configuration `CFG_*` (10_state.md R54 to R58), each register at the width of its named bits. -/
structure ShadowConfig where
  stepInv : BitVec 8
  dirInv : BitVec 8
  limInv : BitVec 8
  limPull : BitVec 8
  ctrlInv : BitVec 4
  ctrlPull : BitVec 4
  probe : BitVec 2
  spnInv : BitVec 3
  coolInv : BitVec 2
  pulseUs : BitVec 16
  delayUs : BitVec 16
  pwmFreq : Word
  pwmMinPct : BitVec 7
  pwmMaxPct : BitVec 7
  rpmMin : Word
  rpmMax : Word
  flags : BitVec 6
  deriving DecidableEq, Repr

/-- What a reset leaves unspecified (70_reset_and_hazards.md R332): buffer contents (index 0 first), tdr, tx.pend and
the input drives, in the form of @LIM_IN, @CTL_IN and @PRB_IN. -/
structure Unspecified where
  rxData : List Byte
  txData : List Byte
  bkData : List Byte
  tdr : Byte
  txPend : Byte
  limFloat : Byte
  limLevel : Byte
  ctlFloat : BitVec 4
  ctlLevel : BitVec 4
  prbFloat : Bool
  prbLevel : Bool
  deriving DecidableEq, Repr

/-- One thing the outside world does to RTCC. -/
inductive Input where
  /-- A frame at a port: a bus word, a command word (a `WR` of it to CMD) or a stimulus (assumption 6). -/
  | frame (f : Frame)
  /-- A HOST access that is not 32 bits wide, a write or a read (20_memory.md R83; assumption 14). -/
  | offWidth (write : Bool)
  /-- rst_n goes low and high again (70_reset_and_hazards.md R330; assumption 13). -/
  | reset (u : Unspecified)
  deriving DecidableEq, Repr

/-! ## The state -/

/-- The state of RTCC (10_state.md R22). `par`, `inbox` and `rdata` are the model's own fields: the parameters of
the machine (assumption 1), the inputs still to come in the order their agents step (assumption 4), and the word the
last RD returned (assumption 9). -/
structure State where
  par : Params
  inbox : List Input
  rdata : Word
  rx : RxBuffer
  bk : Backup
  tx : TxBuffer
  tdr : Byte
  tdrFull : Bool
  pe : PulseEngine
  pt : PulseTimer
  st : StepTimer
  limDrv : List Drive
  ctlDrv : List Drive
  prbDrv : Drive
  db : Debounce
  limitEvt : BitVec 8
  controlEvt : BitVec 4
  sp : Spindle
  pwm : PwmOutput
  spnPwmCmd : BitVec 16
  pw : SpindlePwm
  cl : Coolant
  dl : DelayTimer
  ac : ActiveConfig
  configured : Bool
  arg0 : Word
  result : Word
  result1 : Word
  err : BitVec 10
  ier : BitVec 4
  ipr : BitVec 4
  cfg : ShadowConfig
  txLine : List Byte
  cbTrace : List Callback
  deriving DecidableEq, Repr

/-! ## Reset -/

/-- Every `ac.*` field is 0 after reset (10_state.md R65). -/
def ActiveConfig.zero : ActiveConfig where
  stepInv := 0
  dirInv := 0
  limInv := 0
  limPull := 0
  ctlInv := 0
  ctlPull := 0
  prbInv := false
  prbPull := false
  spnInv := 0
  coolInv := 0
  widthTicks := 0
  delayTicks := 0
  delayed := false
  rpmMin := 0
  rpmMax := 0
  offOnZero := false
  swDebounce := false
  varSpeed := false
  amass := 0

/-- Every `CFG_*` register is 0 after reset (10_state.md R65). -/
def ShadowConfig.zero : ShadowConfig where
  stepInv := 0
  dirInv := 0
  limInv := 0
  limPull := 0
  ctrlInv := 0
  ctrlPull := 0
  probe := 0
  spnInv := 0
  coolInv := 0
  pulseUs := 0
  delayUs := 0
  pwmFreq := 0
  pwmMinPct := 0
  pwmMaxPct := 0
  rpmMin := 0
  rpmMax := 0
  flags := 0

/-- The machine right after reset: the table of 10_state.md R65, with the parameters of assumption 2, the buffer
contents, `tdr` and `tx.pend` of assumptions 10 and 11, every input pin driven 0 (assumption 12) and no input to
come (assumption 5). -/
def State.reset : State where
  par := Params.standard
  inbox := []
  rdata := 0
  rx := { data := [], head := 0, tail := 0, ovf := false, bkActive := false, suspended := false }
  bk := { data := [], head := 0, tail := 0 }
  tx := { data := [], head := 0, tail := 0, irqEn := false, blocked := false, pend := 0, ovf := false }
  tdr := 0
  tdrFull := false
  pe := { state := .idle, stepL := 0, dirL := 0, stash := 0 }
  pt := { run := false, cnt := 0, cmp := 0 }
  st := { en := false, period := 0, cnt := 0 }
  limDrv := [.low, .low, .low]
  ctlDrv := [.low, .low, .low, .low]
  prbDrv := .low
  db := { state := .idle, cnt := 0 }
  limitEvt := 0
  controlEvt := 0
  sp := { enabled := false, ccw := false, applied := 0, effRpm := 0 }
  pwm := { en := false, duty := 0 }
  spnPwmCmd := 0
  pw := { period := 0, offValue := 0, minValue := 0, maxValue := 0, gnum := 0, gden := 0 }
  cl := { flood := false, mist := false }
  dl := { cnt := 0, cb := false }
  ac := ActiveConfig.zero
  configured := false
  arg0 := 0
  result := 0
  result1 := 0
  err := 0
  ier := 0
  ipr := 0
  cfg := ShadowConfig.zero
  txLine := []
  cbTrace := []

end Sys2Proof.Machine
end

