-- ==== Sys2Proof/Machine/Operands.lean ====
section
/-! DEFINITION. Operand forms: the bits of a set of signals, per-axis operands, the wide operand ARG0, the pin
operands of the stimuli, and the placing of fields in a register word (spec/30_encoding.md R115, R117;
spec/00_scope.md R12, R13). -/
namespace Sys2Proof.Machine

/-- The bit vector whose bit i is `f i`, bit 0 the least significant (00_scope.md R13). -/
def bitsOf : (w : Nat) → (Nat → Bool) → BitVec w
  | 0, _ => 0#0
  | w + 1, f => BitVec.cons (f w) (bitsOf w f)

/-- A one-bit field at position `k` of a register word. -/
def bitAt (b : Bool) (k : Nat) : Word := (BitVec.ofBool b).setWidth 32 <<< k

/-- A field at bit `k` and up of a register word. -/
def fieldAt {w : Nat} (v : BitVec w) (k : Nat) : Word := v.setWidth 32 <<< k

/-- `zext_32` (00_scope.md R13). -/
def zext32 {w : Nat} (v : BitVec w) : Word := v.setWidth 32

/-- A per-axis operand: only bits N_AXES-1:0 are used, higher bits are ignored (30_encoding.md R115). -/
def axisOperand (p : Params) (v : Byte) : BitVec 8 := v &&& p.axisMask

/-- The wide operand `rpm` or `cycles` is ARG0, read in the command's own step (30_encoding.md R115). -/
def wideOperand (s : State) : Word := s.arg0

/-- The drive that bit i of `float` and of `level` sets: Z if the float bit is 1, else the level
(30_encoding.md R117). -/
def driveOf (float level : Bool) : Drive :=
  if float then .float else if level then .high else .low

/-- The drives of pins 0 to n-1; operand bits above the pin count are ignored (30_encoding.md R117). -/
def drivesOf {w : Nat} (n : Nat) (float level : BitVec w) : List Drive :=
  (List.range n).map fun i => driveOf (float.getLsbD i) (level.getLsbD i)

end Sys2Proof.Machine
end

