-- ==== Sys2Proof/Machine/Ops.lean ====
section
/-! DEFINITION. The operations the meanings share: reading and writing a ring buffer's cells, ring indices,
returning a result, raising an error cause, delivering a callback and the HOST's acknowledgement of it, and the tests
around a HOST command (spec/20_memory.md R90; spec/10_state.md R24; spec/60_exceptions.md R290, R296, R308;
spec/30_encoding.md R113). -/
namespace Sys2Proof.Machine

/-- What a step answers. -/
abbrev Result := Host.Outcome State Fault Refusal

/-! ## Cells of a ring buffer -/

/-- What an index no step has written reads as. The spec leaves it unspecified (10_state.md R65); DESIGN CHOICE,
assumption 10. -/
def Memory.unwritten : Byte := 0x00

/-- `MemRead(buf, i)` (20_memory.md R90). -/
def Memory.read (m : Memory) (i : Nat) : Byte :=
  match m with
  | [] => Memory.unwritten
  | (k, b) :: rest => if k = i then b else Memory.read rest i

/-- `MemWrite(buf, i, v)` (20_memory.md R90), keeping the canonical form. -/
def Memory.write (m : Memory) (i : Nat) (v : Byte) : Memory :=
  match m with
  | [] => if v = Memory.unwritten then [] else [(i, v)]
  | (k, b) :: rest =>
    if i < k then (if v = Memory.unwritten then (k, b) :: rest else (i, v) :: (k, b) :: rest)
    else if i = k then (if v = Memory.unwritten then rest else (i, v) :: rest)
    else (k, b) :: Memory.write rest i v

/-- The canonical form from index `lo` up: indices strictly rising, no cell holding the unwritten value. -/
def Memory.wfFrom (lo : Nat) : Memory → Bool
  | [] => true
  | (k, b) :: rest => decide (lo ≤ k) && (b != Memory.unwritten) && Memory.wfFrom (k + 1) rest

/-- The canonical form of a buffer's cells (assumption 15). -/
def Memory.wf (m : Memory) : Bool := Memory.wfFrom 0 m

/-- No cell at or above the capacity. -/
def Memory.below (cap : Nat) (m : Memory) : Bool := m.all fun c => decide (c.1 < cap)

/-- The cells of an array given whole, index `i` first. -/
def Memory.ofBytes (i : Nat) : List Byte → Memory
  | [] => []
  | b :: rest => Memory.write (Memory.ofBytes (i + 1) rest) i b

/-! ## Ring indices -/

/-- Advancing an index: `(i + 1) & M` (20_memory.md R90). -/
def advance (mask i : Nat) : Nat := (i + 1) &&& mask

/-- `occupied(h, t, M) = (h - t) & M` (00_scope.md R17); M + 1 is added so that the difference of two indices below
the capacity does not go below 0. -/
def occupied (head tail mask : Nat) : Nat := (head + (mask + 1) - tail) &&& mask

/-- The bytes a ring buffer holds, in order of arrival: `n` of them from index `t` (10_state.md R24). -/
def window (m : Memory) (mask : Nat) : (n : Nat) → (t : Nat) → List Byte
  | 0, _ => []
  | n + 1, t => m.read t :: window m mask n (advance mask t)

/-! ## Results -/

/-- A command that returns a value writes RESULT (10_state.md R48). -/
def returns (v : Word) (s : State) : State := { s with result := v }

/-- A command that returns two values writes RESULT and RESULT1 (10_state.md R48). -/
def returnsTwo (v w : Word) (s : State) : State := { s with result := v, result1 := w }

/-! ## Taking an exception: error causes and callbacks -/

/-- The bit of ERR a cause sets (60_exceptions.md R290; 10_state.md R50). -/
def Cause.code : Cause → Nat
  | .illegalCmd => 0
  | .busy => 1
  | .notConfigured => 2
  | .cfgInvalid => 3
  | .cfgBusy => 4
  | .pulseOverrun => 5
  | .cancelInBackup => 6
  | .bus => 7
  | .txUnderrun => 8
  | .txAbort => 9

/-- The mask of a cause's bit in ERR. -/
def Cause.bit (c : Cause) : BitVec 10 := 1#10 <<< c.code

/-- `raise <Cause>`: set the cause's sticky bit and nothing else (60_exceptions.md R290 to R292). -/
def raise (c : Cause) (s : State) : State := { s with err := s.err ||| c.bit }

/-- The pending bit a callback sets in IPR; none for the two synchronous ones (60_exceptions.md R296). -/
def Callback.pending : Callback → BitVec 4
  | .step => 0b0001
  | .limit _ => 0b0010
  | .control _ => 0b0100
  | .delay => 0b1000
  | .rt _ _ => 0
  | .block _ => 0

/-- LIMIT_EVT after a callback (60_exceptions.md R296). -/
def Callback.limitLatch (old : BitVec 8) : Callback → BitVec 8
  | .limit v => v
  | _ => old

/-- CONTROL_EVT after a callback (60_exceptions.md R296). -/
def Callback.controlLatch (old : BitVec 4) : Callback → BitVec 4
  | .control v => v
  | _ => old

/-- `callback <Name>(args)`, the analogue of trap entry: append to the trace, set the pending bit, latch the argument
(60_exceptions.md R296, R307). -/
def deliver (c : Callback) (s : State) : State :=
  { s with
    cbTrace := s.cbTrace ++ [c]
    ipr := s.ipr ||| c.pending
    limitEvt := c.limitLatch s.limitEvt
    controlEvt := c.controlLatch s.controlEvt }

/-- The analogue of trap return: the HOST's write to IPR clears the pending bits it names and restores nothing
(60_exceptions.md R308). -/
def acknowledge (bits : BitVec 4) (s : State) : State := { s with ipr := s.ipr &&& ~~~bits }

/-- The HOST's write to ERR clears the causes it names (10_state.md R50). -/
def clearCauses (bits : BitVec 10) (s : State) : State := { s with err := s.err &&& ~~~bits }

/-! ## Around a HOST command -/

/-- A command as a HOST step: the BUSY test of 20_memory.md R85, then the gate of 30_encoding.md R113 and
60_exceptions.md R293, then the body. The order is that of 60_exceptions.md R306. -/
def hostCommand (gated : Bool) (body : State → State) (s : State) : Result :=
  if s.tx.blocked then .next (raise .busy s)
  else if gated && !s.configured then .next (raise .notConfigured s)
  else .next (body s)

/-- A word written to CMD that encodes no command (30_encoding.md R113, R118). -/
def illegalCommand (s : State) : Result := hostCommand false (raise .illegalCmd) s

end Sys2Proof.Machine
end

