-- ==== Sys2Proof/Machine/Flags.lean ====
section
/-! DEFINITION. Flags and conditions computed from the state: empty and full ring buffers, the STATUS word, the
interrupt output (spec/10_state.md R24, R49, R51, R63). -/
namespace Sys2Proof.Machine

/-- The code of `pe.state` in STATUS (10_state.md R32). -/
def PulseState.code : PulseState → BitVec 2
  | .idle => 0
  | .waitDelay => 1
  | .pulsing => 2

/-- The code of `db.state` in STATUS (10_state.md R38). -/
def DebounceState.code : DebounceState → BitVec 2
  | .idle => 0
  | .armed => 1
  | .counting => 2

/-- Full iff advancing head would equal tail (10_state.md R24). -/
def rxFull (s : State) : Bool := advance s.par.rxMask s.rx.head == s.rx.tail

/-- Empty iff head equals tail (10_state.md R24). -/
def rxEmpty (s : State) : Bool := s.rx.head == s.rx.tail

/-- Full iff advancing head would equal tail (10_state.md R24, R27). -/
def txFull (s : State) : Bool := advance s.par.txMask s.tx.head == s.tx.tail

/-- Empty iff head equals tail (10_state.md R24, R27). -/
def txEmpty (s : State) : Bool := s.tx.head == s.tx.tail

/-- A flag as a number: 1 when set. -/
def flagWord (b : Bool) : Word := if b then 1 else 0

/-- The STATUS register (10_state.md R49). -/
def statusWord (s : State) : Word :=
  bitAt s.rx.ovf 0 ||| bitAt s.rx.bkActive 1 ||| bitAt s.rx.suspended 2 |||
  bitAt (!rxEmpty s) 3 ||| bitAt (!txEmpty s) 4 ||| bitAt s.tx.irqEn 5 |||
  bitAt s.tdrFull 6 ||| bitAt s.tx.blocked 7 |||
  fieldAt s.pe.state.code 8 ||| fieldAt s.db.state.code 10 |||
  bitAt s.pt.run 12 ||| bitAt s.st.en 13 ||| bitAt s.pwm.en 14 |||
  bitAt (s.dl.cnt != 0) 15 ||| bitAt s.configured 16 ||| bitAt s.ac.delayed 17 |||
  bitAt s.tx.ovf 18 ||| bitAt s.sp.enabled 19 ||| bitAt s.sp.ccw 20

/-- The interrupt output pin: `(IPR & IER) != 0` (10_state.md R51, R60). -/
def irq (s : State) : Bool := (s.ipr &&& s.ier) != 0

end Sys2Proof.Machine
end

