-- ==== Sys2Proof/Machine/Auxiliary.lean ====
section
/-! DEFINITION. Applying the configuration, coolant, the millisecond timer, NOP (spec/44_aux.md). -/
namespace Sys2Proof.Machine

/-! ## CFG_APPLY -/

/-- `period <- floor(F_PWM / CFG_PWM_FREQ)` (44_aux.md R270); a frequency of 0 gives no period and is refused. -/
def cfgPeriod (s : State) : Nat := s.par.fPwm / s.cfg.pwmFreq.toNat

/-- `max <- min(floor(period * CFG_PWM_MAX_PCT / 100), period - 1)` (44_aux.md R270). -/
def cfgMax (s : State) : Nat := min (cfgPeriod s * s.cfg.pwmMaxPct.toNat / 100) (cfgPeriod s - 1)

/-- `min(floor(period * CFG_PWM_MIN_PCT / 100), max)` (44_aux.md R271). -/
def cfgMin (s : State) : Nat := min (cfgPeriod s * s.cfg.pwmMinPct.toNat / 100) (cfgMax s)

/-- The denominator of the gradient (44_aux.md R271). -/
def cfgGden (s : State) : Word :=
  if s.cfg.rpmMax.toNat > s.cfg.rpmMin.toNat then s.cfg.rpmMax - s.cfg.rpmMin else 0

/-- The validity tests of 44_aux.md R270. -/
def cfgValid (s : State) : Bool :=
  decide (1 ≤ s.cfg.pulseUs.toNat) && decide (1 ≤ s.cfg.pwmFreq.toNat)
    && decide (2 ≤ cfgPeriod s) && decide (cfgPeriod s ≤ 65535)
    && decide (s.cfg.pwmMinPct.toNat ≤ s.cfg.pwmMaxPct.toNat) && decide (s.cfg.pwmMaxPct.toNat ≤ 100)
    && decide (1 ≤ cfgMax s)

/-- The `ac.*` lines of 44_aux.md R271. -/
def cfgActive (s : State) : ActiveConfig where
  stepInv := s.cfg.stepInv
  dirInv := s.cfg.dirInv
  limInv := s.cfg.limInv
  limPull := s.cfg.limPull
  ctlInv := s.cfg.ctrlInv
  ctlPull := s.cfg.ctrlPull
  prbInv := s.cfg.probe.getLsbD 0
  prbPull := s.cfg.probe.getLsbD 1
  spnInv := s.cfg.spnInv
  coolInv := s.cfg.coolInv
  widthTicks := BitVec.ofNat 32 (s.cfg.pulseUs.toNat * s.par.ptTicksPerUs)
  delayTicks := BitVec.ofNat 32 (s.cfg.delayUs.toNat * s.par.ptTicksPerUs)
  delayed := s.cfg.delayUs != 0
  rpmMin := s.cfg.rpmMin
  rpmMax := s.cfg.rpmMax
  offOnZero := s.cfg.flags.getLsbD 0
  swDebounce := s.cfg.flags.getLsbD 1
  varSpeed := s.cfg.flags.getLsbD 2
  amass := s.cfg.flags.extractLsb' 4 2

/-- The `pw.*` lines of 44_aux.md R271. -/
def cfgSpindlePwm (s : State) : SpindlePwm where
  period := BitVec.ofNat 16 (cfgPeriod s)
  offValue := 0
  minValue := BitVec.ofNat 16 (cfgMin s)
  maxValue := BitVec.ofNat 16 (cfgMax s)
  gnum := BitVec.ofNat 16 (cfgMax s - cfgMin s)
  gden := cfgGden s

/-- CFG_APPLY (44_aux.md R270, R271): the tests in order, then the whole effect in one step. -/
def cfgApplyBody (s : State) : State :=
  if s.pe.state ≠ .idle then raise .cfgBusy s
  else if !cfgValid s then raise .cfgInvalid s
  else returns 1 { s with ac := cfgActive s, pw := cfgSpindlePwm s, configured := true }

/-- The HOST step CFG_APPLY. -/
def execCfgApply (s : State) : Result := hostCommand false cfgApplyBody s

/-! ## Coolant -/

/-- COOLANT_SET (44_aux.md R274). -/
def coolantSetBody (mist flood : Bool) (s : State) : State := { s with cl := { flood := flood, mist := mist } }

/-- The HOST step COOLANT_SET. -/
def execCoolantSet (mist flood : Bool) (s : State) : Result := hostCommand false (coolantSetBody mist flood) s

/-- COOLANT_GET (44_aux.md R275): bit 0 flood, bit 1 mist. -/
def coolantGetBody (s : State) : State := returns (bitAt s.cl.mist 1 ||| bitAt s.cl.flood 0) s

/-- The HOST step COOLANT_GET. -/
def execCoolantGet (s : State) : Result := hostCommand false coolantGetBody s

/-! ## Millisecond timer -/

/-- DELAY_MS (44_aux.md R279): a delay of 0 with the callback wanted delivers it at once. -/
def delayMsBody (cb : Bool) (ms : BitVec 16) (s : State) : State :=
  if ms = 0 ∧ cb = true then deliver .delay { s with dl := { cnt := ms, cb := false } }
  else { s with dl := { cnt := ms, cb := cb } }

/-- The HOST step DELAY_MS. -/
def execDelayMs (cb : Bool) (ms : BitVec 16) (s : State) : Result := hostCommand false (delayMsBody cb ms) s

/-- @MS_TICK (44_aux.md R280). -/
def msTickEffect (s : State) : State :=
  if s.dl.cnt = 0 then s
  else if s.dl.cnt - 1 = 0 ∧ s.dl.cb = true then
    deliver .delay { s with dl := { cnt := s.dl.cnt - 1, cb := false } }
  else { s with dl := { s.dl with cnt := s.dl.cnt - 1 } }

/-- @MS_TICK: with no delay running it changes nothing. -/
def execMsTick (s : State) : Result := .next (msTickEffect s)

/-! ## No operation -/

/-- NOP changes nothing, but is still a command (44_aux.md R281). -/
def execNop (s : State) : Result := hostCommand false (fun u => u) s

end Sys2Proof.Machine
end

