-- ==== Sys2Proof/Machine/Pins.lean ====
section
/-! DEFINITION. The pins: raw input levels and their logical values, output levels, the PWM waveform (spec/10_state.md
R60 to R62; spec/42_inputs_debounce.md R211, R213; spec/00_scope.md R15). -/
namespace Sys2Proof.Machine

/-! ## Inputs -/

/-- The level on a pin: its drive, or its pull direction when it is not driven (10_state.md R61). -/
def rawLevel (d : Drive) (pull : Bool) : Bool :=
  match d with
  | .low => false
  | .high => true
  | .float => pull

/-- The raw levels of a group of pins, bit i for pin i. -/
def rawBits {w : Nat} (drives : List Drive) (pull : BitVec w) : BitVec w :=
  bitsOf w fun i => rawLevel (drives.getD i .low) (pull.getLsbD i)

/-- `lim_raw & AXM` (10_state.md R61; 42_inputs_debounce.md R211). -/
def limRaw (s : State) : BitVec 8 := rawBits s.limDrv s.ac.limPull &&& s.par.axisMask

/-- `ctl_raw` (10_state.md R61); its four bits are the control mask's. -/
def ctlRaw (s : State) : BitVec 4 := rawBits s.ctlDrv s.ac.ctlPull

/-- `prb_raw` (10_state.md R61). -/
def prbRaw (s : State) : Bool := rawLevel s.prbDrv s.ac.prbPull

/-- `LimLogical()` (42_inputs_debounce.md R211). -/
def limLogical (s : State) : BitVec 8 := limRaw s ^^^ s.ac.limInv

/-- `CtlLogical()` (42_inputs_debounce.md R213). -/
def ctlLogical (s : State) : BitVec 4 := ctlRaw s ^^^ s.ac.ctlInv

/-- `CtlDecode(v)`: the one highest-priority signal, reset > safety-door > feed-hold > cycle-start
(42_inputs_debounce.md R213). -/
def ctlDecode (v : BitVec 4) : BitVec 4 :=
  if v.getLsbD 0 then 0b0001
  else if v.getLsbD 3 then 0b1000
  else if v.getLsbD 1 then 0b0010
  else if v.getLsbD 2 then 0b0100
  else 0b0000

/-- The logical probe state (44_aux.md R276). -/
def prbLogical (s : State) : Bool := prbRaw s ^^ s.ac.prbInv

/-! ## Outputs -/

/-- Step pins (10_state.md R60). -/
def stepPins (s : State) : BitVec 8 := (s.pe.stepL ^^^ s.ac.stepInv) &&& s.par.axisMask

/-- Direction pins (10_state.md R60). -/
def dirPins (s : State) : BitVec 8 := (s.pe.dirL ^^^ s.ac.dirInv) &&& s.par.axisMask

/-- Spindle enable pin (10_state.md R60). -/
def spnEnPin (s : State) : Bool := s.sp.enabled ^^ s.ac.spnInv.getLsbD 0

/-- Spindle direction pin (10_state.md R60). -/
def spnDirPin (s : State) : Bool := s.sp.ccw ^^ s.ac.spnInv.getLsbD 1

/-- `pwm_logical` when the PWM counter stands at `count` (10_state.md R62). The counter is no state and its phase is
unspecified, so the count is an argument (assumption 17). -/
def pwmLogical (s : State) (count : Nat) : Bool :=
  s.pwm.en && decide (count < min s.pwm.duty.toNat s.pw.period.toNat)

/-- The PWM pin when the counter stands at `count` (10_state.md R60). -/
def pwmPin (s : State) (count : Nat) : Bool := pwmLogical s count ^^ s.ac.spnInv.getLsbD 2

/-- The PWM pin's level when the PWM is off (10_state.md R59). -/
def pwmIdlePin (s : State) : Bool := false ^^ s.ac.spnInv.getLsbD 2

/-- Flood pin (10_state.md R60). -/
def floodPin (s : State) : Bool := s.cl.flood ^^ s.ac.coolInv.getLsbD 0

/-- Mist pin (10_state.md R60). -/
def mistPin (s : State) : Bool := s.cl.mist ^^ s.ac.coolInv.getLsbD 1

/-- PIN_OUT (10_state.md R59). -/
def pinOutWord (s : State) : Word :=
  fieldAt (stepPins s) 0 ||| fieldAt (dirPins s) 8 |||
  bitAt (spnEnPin s) 16 ||| bitAt (spnDirPin s) 17 ||| bitAt (pwmIdlePin s) 18 |||
  bitAt (floodPin s) 19 ||| bitAt (mistPin s) 20

/-- PIN_IN (10_state.md R59). -/
def pinInWord (s : State) : Word :=
  fieldAt (limRaw s) 0 ||| fieldAt (ctlRaw s) 8 ||| bitAt (prbRaw s) 12

end Sys2Proof.Machine
end

