-- ==== Sys2Proof/Machine/Inputs.lean ====
section
/-! DEFINITION. INP and DBC, the input sampler, the edge detector and the debounce machine
(spec/42_inputs_debounce.md), and the probe input (spec/44_aux.md R276, R277). -/
namespace Sys2Proof.Machine

/-- GET_LIMITS (42_inputs_debounce.md R212). -/
def getLimitsBody (s : State) : State := returns (zext32 (limLogical s)) s

/-- The HOST step GET_LIMITS. -/
def execGetLimits (s : State) : Result := hostCommand false getLimitsBody s

/-- GET_CONTROL (42_inputs_debounce.md R214). -/
def getControlBody (s : State) : State := returns (zext32 (ctlDecode (ctlLogical s))) s

/-- The HOST step GET_CONTROL. -/
def execGetControl (s : State) : Result := hostCommand false getControlBody s

/-- GET_PROBE (44_aux.md R276). -/
def getProbeBody (s : State) : State := returns (flagWord (prbLogical s)) s

/-- The HOST step GET_PROBE. -/
def execGetProbe (s : State) : Result := hostCommand false getProbeBody s

/-- LIMITS_ENABLE (42_inputs_debounce.md R215). -/
def limitsEnableBody (f : Bool) (s : State) : State :=
  if f then
    (if s.db.state = .idle then { s with db := { s.db with state := .armed } } else s)
  else { s with db := { state := .idle, cnt := 0 } }

/-- The HOST step LIMITS_ENABLE. -/
def execLimitsEnable (f : Bool) (s : State) : Result := hostCommand false (limitsEnableBody f) s

/-- Some bit goes from 0 to 1: `(new & ~old) != 0` (42_inputs_debounce.md R216, R217, R222). -/
def rises {w : Nat} (old new : BitVec w) : Bool := (new &&& ~~~old) != 0

/-- `LimitEdge()` (42_inputs_debounce.md R218): open or restart the settle window, or deliver at once when software
debounce is off. -/
def limitEdge (s : State) : State :=
  if s.ac.swDebounce then { s with db := { state := .counting, cnt := s.par.debounceTicks } }
  else deliver (.limit (limLogical s)) s

/-- @LIM_IN (42_inputs_debounce.md R216). -/
def limInEffect (float level : Byte) (s : State) : State :=
  let u : State := { s with limDrv := drivesOf s.par.nAxes float level }
  if rises (limLogical s) (limLogical u) && u.db.state != .idle then limitEdge u else u

/-- @LIM_IN: always enabled. -/
def execLimIn (float level : Byte) (s : State) : Result := .next (limInEffect float level s)

/-- @DB_TICK (42_inputs_debounce.md R219): at zero the state as it is now is delivered. -/
def dbTickEffect (s : State) : State :=
  if s.db.state = .counting then
    if s.db.cnt - 1 = 0 then
      deliver (.limit (limLogical s)) { s with db := { state := .armed, cnt := 0 } }
    else { s with db := { s.db with cnt := s.db.cnt - 1 } }
  else s

/-- @DB_TICK: when the machine is not counting it changes nothing. -/
def execDbTick (s : State) : Result := .next (dbTickEffect s)

/-- @CTL_IN (42_inputs_debounce.md R222): control inputs are not debounced. -/
def ctlInEffect (float level : BitVec 4) (s : State) : State :=
  let u : State := { s with ctlDrv := drivesOf 4 float level }
  if rises (ctlLogical s) (ctlLogical u) then deliver (.control (ctlDecode (ctlLogical u))) u else u

/-- @CTL_IN: always enabled. -/
def execCtlIn (float level : BitVec 4) (s : State) : Result := .next (ctlInEffect float level s)

/-- @PRB_IN (44_aux.md R277): always enabled, no edge, no callback. -/
def execPrbIn (float level : Bool) (s : State) : Result := .next { s with prbDrv := driveOf float level }

end Sys2Proof.Machine
end

