-- ==== Sys2Proof/Machine/Registers.lean ====
section
/-! DEFINITION. The register bank (spec/10_state.md R45 to R59): addresses, access kinds, what a read returns and
what a write stores. -/
namespace Sys2Proof.Machine

/-- The registers of 10_state.md R45, in address order. -/
inductive Reg where
  | cmd | arg0 | result | result1 | status | err | ier | ipr | limitEvt | controlEvt | spnPwmCmd
  | cfgStepInv | cfgDirInv | cfgLimitInv | cfgLimitPull | cfgCtrlInv | cfgCtrlPull | cfgProbe
  | cfgSpnInv | cfgCoolInv | cfgPulseUs | cfgDelayUs | cfgPwmFreq | cfgPwmMinPct | cfgPwmMaxPct
  | cfgRpmMin | cfgRpmMax | cfgFlags
  | pwmPeriod | pwmOff | pwmMin | pwmMax | gradNum | gradDen | pwmDuty | spnApplied
  | pinOut | pinIn | stepPeriod | rxHead | rxTail | txHead | txTail | bkHead | bkTail
  | dbCount | ptCount | ptCompare
  deriving DecidableEq, Repr

/-- The access kinds of 10_state.md R45. -/
inductive Kind where
  | readOnly
  | writeOnly
  | readWrite
  | writeOneToClear
  deriving DecidableEq, Repr

/-- The command port, the data registers, STATUS, ERR, IER, IPR, the latches, SPN_PWM_CMD. -/
def Reg.control : List Reg :=
  [.cmd, .arg0, .result, .result1, .status, .err, .ier, .ipr, .limitEvt, .controlEvt, .spnPwmCmd]

/-- The shadow configuration. -/
def Reg.config : List Reg :=
  [.cfgStepInv, .cfgDirInv, .cfgLimitInv, .cfgLimitPull, .cfgCtrlInv, .cfgCtrlPull, .cfgProbe,
    .cfgSpnInv, .cfgCoolInv, .cfgPulseUs, .cfgDelayUs, .cfgPwmFreq, .cfgPwmMinPct, .cfgPwmMaxPct,
    .cfgRpmMin, .cfgRpmMax, .cfgFlags]

/-- The read-only mirrors 0x90 to 0xE0. -/
def Reg.mirrors : List Reg :=
  [.pwmPeriod, .pwmOff, .pwmMin, .pwmMax, .gradNum, .gradDen, .pwmDuty, .spnApplied,
    .pinOut, .pinIn, .stepPeriod, .rxHead, .rxTail, .txHead, .txTail, .bkHead, .bkTail,
    .dbCount, .ptCount, .ptCompare]

/-- All registers, in address order. -/
def Reg.all : List Reg := Reg.control ++ Reg.config ++ Reg.mirrors

/-- The address column of 10_state.md R45. -/
def Reg.addr : Reg → Byte
  | .cmd => 0x00
  | .arg0 => 0x04
  | .result => 0x08
  | .result1 => 0x0C
  | .status => 0x10
  | .err => 0x14
  | .ier => 0x18
  | .ipr => 0x1C
  | .limitEvt => 0x20
  | .controlEvt => 0x24
  | .spnPwmCmd => 0x28
  | .cfgStepInv => 0x40
  | .cfgDirInv => 0x44
  | .cfgLimitInv => 0x48
  | .cfgLimitPull => 0x4C
  | .cfgCtrlInv => 0x50
  | .cfgCtrlPull => 0x54
  | .cfgProbe => 0x58
  | .cfgSpnInv => 0x5C
  | .cfgCoolInv => 0x60
  | .cfgPulseUs => 0x64
  | .cfgDelayUs => 0x68
  | .cfgPwmFreq => 0x6C
  | .cfgPwmMinPct => 0x70
  | .cfgPwmMaxPct => 0x74
  | .cfgRpmMin => 0x78
  | .cfgRpmMax => 0x7C
  | .cfgFlags => 0x80
  | .pwmPeriod => 0x90
  | .pwmOff => 0x94
  | .pwmMin => 0x98
  | .pwmMax => 0x9C
  | .gradNum => 0xA0
  | .gradDen => 0xA4
  | .pwmDuty => 0xA8
  | .spnApplied => 0xAC
  | .pinOut => 0xB0
  | .pinIn => 0xB4
  | .stepPeriod => 0xB8
  | .rxHead => 0xC0
  | .rxTail => 0xC4
  | .txHead => 0xC8
  | .txTail => 0xCC
  | .bkHead => 0xD0
  | .bkTail => 0xD4
  | .dbCount => 0xD8
  | .ptCount => 0xDC
  | .ptCompare => 0xE0

/-- The kind column of 10_state.md R45. -/
def Reg.kind : Reg → Kind
  | .cmd => .writeOnly
  | .arg0 => .readWrite
  | .result => .readOnly
  | .result1 => .readOnly
  | .status => .readOnly
  | .err => .writeOneToClear
  | .ier => .readWrite
  | .ipr => .writeOneToClear
  | .limitEvt => .readOnly
  | .controlEvt => .readOnly
  | .spnPwmCmd => .readWrite
  | .cfgStepInv => .readWrite
  | .cfgDirInv => .readWrite
  | .cfgLimitInv => .readWrite
  | .cfgLimitPull => .readWrite
  | .cfgCtrlInv => .readWrite
  | .cfgCtrlPull => .readWrite
  | .cfgProbe => .readWrite
  | .cfgSpnInv => .readWrite
  | .cfgCoolInv => .readWrite
  | .cfgPulseUs => .readWrite
  | .cfgDelayUs => .readWrite
  | .cfgPwmFreq => .readWrite
  | .cfgPwmMinPct => .readWrite
  | .cfgPwmMaxPct => .readWrite
  | .cfgRpmMin => .readWrite
  | .cfgRpmMax => .readWrite
  | .cfgFlags => .readWrite
  | .pwmPeriod => .readOnly
  | .pwmOff => .readOnly
  | .pwmMin => .readOnly
  | .pwmMax => .readOnly
  | .gradNum => .readOnly
  | .gradDen => .readOnly
  | .pwmDuty => .readOnly
  | .spnApplied => .readOnly
  | .pinOut => .readOnly
  | .pinIn => .readOnly
  | .stepPeriod => .readOnly
  | .rxHead => .readOnly
  | .rxTail => .readOnly
  | .txHead => .readOnly
  | .txTail => .readOnly
  | .bkHead => .readOnly
  | .bkTail => .readOnly
  | .dbCount => .readOnly
  | .ptCount => .readOnly
  | .ptCompare => .readOnly

/-- The register at a byte address, if the address is mapped. Every mapped address is a multiple of 4 and at most
0xE0, so a misaligned or out-of-range address has none (20_memory.md R83, R88). -/
def Reg.ofAddr (a : Byte) : Option Reg := Reg.all.find? (·.addr == a)

/-- What a read returns, unnamed bits 0 (20_memory.md R84; 10_state.md R46 to R59). -/
def Reg.read (s : State) : Reg → Word
  | .cmd => 0
  | .arg0 => s.arg0
  | .result => s.result
  | .result1 => s.result1
  | .status => statusWord s
  | .err => zext32 s.err
  | .ier => zext32 s.ier
  | .ipr => zext32 s.ipr
  | .limitEvt => zext32 s.limitEvt
  | .controlEvt => zext32 s.controlEvt
  | .spnPwmCmd => zext32 s.spnPwmCmd
  | .cfgStepInv => zext32 s.cfg.stepInv
  | .cfgDirInv => zext32 s.cfg.dirInv
  | .cfgLimitInv => zext32 s.cfg.limInv
  | .cfgLimitPull => zext32 s.cfg.limPull
  | .cfgCtrlInv => zext32 s.cfg.ctrlInv
  | .cfgCtrlPull => zext32 s.cfg.ctrlPull
  | .cfgProbe => zext32 s.cfg.probe
  | .cfgSpnInv => zext32 s.cfg.spnInv
  | .cfgCoolInv => zext32 s.cfg.coolInv
  | .cfgPulseUs => zext32 s.cfg.pulseUs
  | .cfgDelayUs => zext32 s.cfg.delayUs
  | .cfgPwmFreq => s.cfg.pwmFreq
  | .cfgPwmMinPct => zext32 s.cfg.pwmMinPct
  | .cfgPwmMaxPct => zext32 s.cfg.pwmMaxPct
  | .cfgRpmMin => s.cfg.rpmMin
  | .cfgRpmMax => s.cfg.rpmMax
  | .cfgFlags => zext32 s.cfg.flags
  | .pwmPeriod => zext32 s.pw.period
  | .pwmOff => zext32 s.pw.offValue
  | .pwmMin => zext32 s.pw.minValue
  | .pwmMax => zext32 s.pw.maxValue
  | .gradNum => zext32 s.pw.gnum
  | .gradDen => s.pw.gden
  | .pwmDuty => zext32 s.pwm.duty
  | .spnApplied => zext32 s.sp.applied
  | .pinOut => pinOutWord s
  | .pinIn => pinInWord s
  | .stepPeriod => s.st.period
  | .rxHead => BitVec.ofNat 32 s.rx.head
  | .rxTail => BitVec.ofNat 32 s.rx.tail
  | .txHead => BitVec.ofNat 32 s.tx.head
  | .txTail => BitVec.ofNat 32 s.tx.tail
  | .bkHead => BitVec.ofNat 32 s.bk.head
  | .bkTail => BitVec.ofNat 32 s.bk.tail
  | .dbCount => zext32 s.db.cnt
  | .ptCount => s.pt.cnt
  | .ptCompare => s.pt.cmp

/-- A value restricted to the low `w` bits, the named bits of most registers (20_memory.md R85). -/
def named (w : Nat) (v : Word) : BitVec w := v.setWidth w

/-- A value restricted to bits N_AXES-1:0 (10_state.md R54, R55). -/
def namedAxes (p : Params) (v : Word) : BitVec 8 := named 8 v &&& p.axisMask

/-- The named bits of CFG_FLAGS: 5:4 and 2:0 (10_state.md R58). -/
def flagsMask : BitVec 6 := 0b110111

/-- What a write to a CFG_* register stores: that shadow register only (20_memory.md R87; 10_state.md R54 to R58). -/
def Reg.writeShadow (p : Params) (v : Word) (c : ShadowConfig) : Reg → ShadowConfig
  | .cfgStepInv => { c with stepInv := namedAxes p v }
  | .cfgDirInv => { c with dirInv := namedAxes p v }
  | .cfgLimitInv => { c with limInv := namedAxes p v }
  | .cfgLimitPull => { c with limPull := namedAxes p v }
  | .cfgCtrlInv => { c with ctrlInv := named 4 v }
  | .cfgCtrlPull => { c with ctrlPull := named 4 v }
  | .cfgProbe => { c with probe := named 2 v }
  | .cfgSpnInv => { c with spnInv := named 3 v }
  | .cfgCoolInv => { c with coolInv := named 2 v }
  | .cfgPulseUs => { c with pulseUs := named 16 v }
  | .cfgDelayUs => { c with delayUs := named 16 v }
  | .cfgPwmFreq => { c with pwmFreq := v }
  | .cfgPwmMinPct => { c with pwmMinPct := named 7 v }
  | .cfgPwmMaxPct => { c with pwmMaxPct := named 7 v }
  | .cfgRpmMin => { c with rpmMin := v }
  | .cfgRpmMax => { c with rpmMax := v }
  | .cfgFlags => { c with flags := named 6 v &&& flagsMask }
  | _ => c

/-- What a write to a register of kind RW or W1C stores (20_memory.md R85). -/
def Reg.write (v : Word) (s : State) : Reg → State
  | .arg0 => { s with arg0 := v }
  | .err => clearCauses (named 10 v) s
  | .ier => { s with ier := named 4 v }
  | .ipr => acknowledge (named 4 v) s
  | .spnPwmCmd => { s with spnPwmCmd := named 16 v }
  | r => { s with cfg := Reg.writeShadow s.par v s.cfg r }

end Sys2Proof.Machine
end

