-- ==== Sys2Proof/Machine/Serial.lean ====
section
/-! DEFINITION. SER, the ring buffer transport (spec/40_serial.md). -/
namespace Sys2Proof.Machine

/-! ## Receive side, commands -/

/-- RXFREE (40_serial.md R141). -/
def rxfreeBody (s : State) : State :=
  returns (BitVec.ofNat 32 (s.par.rxCap - occupied s.rx.head s.rx.tail s.par.rxMask)) s

/-- The HOST step RXFREE. -/
def execRxfree (s : State) : Result := hostCommand false rxfreeBody s

/-- RXFLUSH (40_serial.md R142). -/
def rxflushBody (s : State) : State := { s with rx := { s.rx with head := 0, tail := 0 } }

/-- The HOST step RXFLUSH. -/
def execRxflush (s : State) : Result := hostCommand false rxflushBody s

/-- RXCANCEL (40_serial.md R143): refused while a backup is held, else the buffer becomes the one byte CAN_BYTE. -/
def rxcancelBody (s : State) : State :=
  if s.rx.bkActive then raise .cancelInBackup s
  else
    { s with rx := { s.rx with
        data := s.rx.data.write s.rx.head s.par.canByte
        tail := s.rx.head
        head := advance s.par.rxMask s.rx.head } }

/-- The HOST step RXCANCEL. -/
def execRxcancel (s : State) : Result := hostCommand false rxcancelBody s

/-- NONE, the answer of a GETBYTE that has no byte (40_serial.md R148). -/
def none32 : Word := 0xFFFFFFFF

/-- GETBYTE (40_serial.md R148). -/
def getbyteBody (s : State) : State :=
  if s.rx.suspended || rxEmpty s then returns none32 s
  else
    returns (zext32 (s.rx.data.read s.rx.tail))
      { s with rx := { s.rx with tail := advance s.par.rxMask s.rx.tail } }

/-- The HOST step GETBYTE. -/
def execGetbyte (s : State) : Result := hostCommand false getbyteBody s

/-- The restore inside SUSPEND 0 (40_serial.md R149): the live buffer becomes the snapshot and the backup ends. -/
def restoreBackup (s : State) : State :=
  { s with rx := { s.rx with data := s.bk.data, head := s.bk.head, tail := s.bk.tail, bkActive := false } }

/-- SUSPEND's effect on the buffer, before it returns (40_serial.md R149). -/
def suspendEffect (f : Bool) (s : State) : State :=
  if f then { s with rx := { s.rx with suspended := true } }
  else
    let u : State := { s with rx := { s.rx with suspended := false } }
    if s.rx.bkActive then restoreBackup u else u

/-- SUSPEND (40_serial.md R149): the effect, then the pending flag on the indices after it. -/
def suspendBody (f : Bool) (s : State) : State :=
  returns (flagWord (!rxEmpty (suspendEffect f s))) (suspendEffect f s)

/-- The HOST step SUSPEND. -/
def execSuspend (f : Bool) (s : State) : Result := hostCommand false (suspendBody f) s

/-- RXOVFCLR (40_serial.md R153). -/
def rxovfclrBody (s : State) : State :=
  returns (flagWord s.rx.ovf) { s with rx := { s.rx with ovf := false } }

/-- The HOST step RXOVFCLR. -/
def execRxovfclr (s : State) : Result := hostCommand false rxovfclrBody s

/-! ## Transmit side -/

/-- `TxEnqueue(c)` (40_serial.md R145). -/
def txEnqueue (c : Byte) (s : State) : State :=
  { s with tx := { s.tx with
      data := s.tx.data.write s.tx.head c
      head := advance s.par.txMask s.tx.head
      irqEn := true } }

/-- Writing the transmitter data register (10_state.md R29). -/
def sendDirect (c : Byte) (s : State) : State := { s with tdr := c, tdrFull := true }

/-- PUTBYTE (40_serial.md R144): direct when the transmitter is idle and nothing is buffered, else enqueue, or wait
when the buffer is full. -/
def putbyteBody (c : Byte) (s : State) : State :=
  if txEmpty s && !s.tdrFull then returns 1 (sendDirect c s)
  else if txFull s then returns 2 { s with tx := { s.tx with pend := c, blocked := true } }
  else returns 1 (txEnqueue c s)

/-- The HOST step PUTBYTE. -/
def execPutbyte (c : Byte) (s : State) : Result := hostCommand false (putbyteBody c) s

/-- The end of a put-byte wait: `tx.blocked <- 0` (40_serial.md R146). -/
def unblock (s : State) : State := { s with tx := { s.tx with blocked := false } }

/-- One turn of the wait loop (40_serial.md R146): space is tested first, and only a full buffer asks the callback. -/
def putRetryEffect (cont : Bool) (s : State) : State :=
  if !txFull s then returns 1 (unblock (txEnqueue s.tx.pend s))
  else if cont then deliver (.block cont) s
  else raise .txAbort (returns 0 (unblock (deliver (.block cont) s)))

/-- @PUT_RETRY (40_serial.md R146): enabled iff `tx.blocked` = 1. -/
def execPutRetry (cont : Bool) (s : State) : Result :=
  if s.tx.blocked then .next (putRetryEffect cont s) else .fault (.notEnabled .putByteBlocker)

/-- The transmit-interrupt handler (40_serial.md R151). -/
def txIrqEffect (s : State) : State :=
  if txEmpty s then raise .txUnderrun { s with tx := { s.tx with irqEn := false } }
  else
    let tail := advance s.par.txMask s.tx.tail
    { s with
      tdr := s.tx.data.read s.tx.tail
      tdrFull := true
      tx := { s.tx with tail := tail, irqEn := if tail = s.tx.head then false else s.tx.irqEn } }

/-- @TX_IRQ (40_serial.md R151): enabled iff `tx.irqEn` = 1 and `tdrFull` = 0. -/
def execTxIrq (s : State) : Result :=
  if s.tx.irqEn && !s.tdrFull then .next (txIrqEffect s) else .fault (.notEnabled .transmitHandler)

/-- The line takes the byte in the transmitter register (40_serial.md R152). -/
def lineTakeEffect (s : State) : State := { s with txLine := s.txLine ++ [s.tdr], tdrFull := false }

/-- @LINE_TAKE (40_serial.md R152): enabled iff `tdrFull` = 1. -/
def execLineTake (s : State) : Result :=
  if s.tdrFull then .next (lineTakeEffect s) else .fault (.notEnabled .transmitLine)

/-! ## Receive side, the handler -/

/-- The snapshot and collapse at a tool-acknowledge byte (40_serial.md R150; 10_state.md R25). -/
def takeSnapshot (s : State) : State :=
  { s with
    bk := { data := s.rx.data, head := s.rx.head, tail := s.rx.tail }
    rx := { s.rx with bkActive := true, tail := s.rx.head, suspended := false } }

/-- A byte is stored and head advances (40_serial.md R150). -/
def rxStore (b : Byte) (s : State) : State :=
  { s with rx := { s.rx with
      data := s.rx.data.write s.rx.head b
      head := advance s.par.rxMask s.rx.head } }

/-- The receive handler (40_serial.md R150): full test first, then the tool-acknowledge test, then the
interceptor. -/
def rxArriveEffect (handled : Bool) (b : Byte) (s : State) : State :=
  if rxFull s then { s with rx := { s.rx with ovf := true } }
  else if b = s.par.toolackByte ∧ s.rx.bkActive = false then takeSnapshot s
  else if handled then deliver (.rt b handled) s
  else rxStore b (deliver (.rt b handled) s)

/-- @RX_ARRIVE (40_serial.md R150): always enabled. -/
def execRxArrive (handled : Bool) (b : Byte) (s : State) : Result := .next (rxArriveEffect handled b s)

end Sys2Proof.Machine
end

