-- ==== Sys2Proof/Machine/Spindle.lean ====
section
/-! DEFINITION. SPN, the spindle controller (spec/43_spindle.md). All arithmetic is on whole numbers (R240). -/
namespace Sys2Proof.Machine

/-- The duty of policy 3 before its clamp (43_spindle.md R248). -/
def interpolatedDuty (s : State) (scaled : Nat) : Nat :=
  ((scaled - 100 * s.ac.rpmMin.toNat) * s.pw.gnum.toNat) / (100 * s.pw.gden.toNat) + s.pw.minValue.toNat

/-- "Full on" duty, `pw.max - 1` (43_spindle.md R248). -/
def fullOnDuty (s : State) : Nat := s.pw.maxValue.toNat - 1

/-- `ComputePwm(rpm, ovr)`: the pair (duty, eff), by the three policies in order (43_spindle.md R248). -/
def computePwm (s : State) (rpm : Word) (ovr : Byte) : BitVec 16 × Word :=
  let scaled := rpm.toNat * ovr.toNat
  if s.ac.rpmMin.toNat ≥ s.ac.rpmMax.toNat ∨ scaled ≥ 100 * s.ac.rpmMax.toNat then
    (BitVec.ofNat 16 (fullOnDuty s), s.ac.rpmMax)
  else if scaled ≤ 100 * s.ac.rpmMin.toNat then
    if scaled = 0 then (s.pw.offValue, 0) else (s.pw.minValue, s.ac.rpmMin)
  else
    (BitVec.ofNat 16
        (if interpolatedDuty s scaled ≥ s.pw.maxValue.toNat then fullOnDuty s
         else interpolatedDuty s scaled),
      BitVec.ofNat 32 (scaled / 100))

/-- COMPUTE_PWM (43_spindle.md R249). -/
def computePwmBody (ovr : Byte) (s : State) : State :=
  let r := computePwm s (wideOperand s) ovr
  returnsTwo (zext32 r.1) r.2 { s with sp := { s.sp with effRpm := r.2 } }

/-- The HOST step COMPUTE_PWM, gated. -/
def execComputePwm (ovr : Byte) (s : State) : Result := hostCommand true (computePwmBody ovr) s

/-- The output half of `SetSpeed(duty)` (43_spindle.md R250): the off-sentinel disables the PWM and, if so
configured, the spindle; any other duty enables both and is programmed. -/
def driveSpeed (duty : BitVec 16) (s : State) : State :=
  if duty = s.pw.offValue then
    { s with
      pwm := { s.pwm with en := false }
      sp := { s.sp with enabled := if s.ac.offOnZero then false else s.sp.enabled } }
  else
    { s with
      pwm := { en := true, duty := duty }
      sp := { s.sp with enabled := true } }

/-- `SetSpeed(duty)` (43_spindle.md R250), shared by SET_SPEED, SET_STATE and the lazy refresh. -/
def setSpeed (duty : BitVec 16) (s : State) : State :=
  let u := driveSpeed duty s
  { u with sp := { u.sp with applied := duty }, spnPwmCmd := duty }

/-- The HOST step SET_SPEED, gated (43_spindle.md R250). -/
def execSetSpeed (duty : BitVec 16) (s : State) : Result := hostCommand true (setSpeed duty) s

/-- Off in variable-speed mode (43_spindle.md R252). -/
def spindleOff (s : State) : State :=
  let u := setSpeed s.pw.offValue s
  returnsTwo (zext32 s.pw.offValue) 0 { u with sp := { u.sp with enabled := false, effRpm := 0 } }

/-- On in variable-speed mode (43_spindle.md R252): direction, mapping, effective rpm, speed. -/
def spindleOn (ccw : Bool) (ovr : Byte) (s : State) : State :=
  let r := computePwm s (wideOperand s) ovr
  returnsTwo (zext32 r.1) r.2
    (setSpeed r.1 { s with sp := { s.sp with ccw := ccw, effRpm := r.2 } })

/-- On/off-only mode (43_spindle.md R252): the PWM is not touched. -/
def spindleSwitch (ccw enable : Bool) (s : State) : State :=
  returnsTwo 0 0
    (if enable then { s with sp := { s.sp with ccw := ccw, enabled := true } }
     else { s with sp := { s.sp with enabled := false } })

/-- SET_STATE (43_spindle.md R252). -/
def setStateBody (ccw enable : Bool) (ovr : Byte) (s : State) : State :=
  if s.ac.varSpeed then (if enable then spindleOn ccw ovr s else spindleOff s)
  else spindleSwitch ccw enable s

/-- The HOST step SET_STATE, gated. -/
def execSetState (ccw enable : Bool) (ovr : Byte) (s : State) : Result :=
  hostCommand true (setStateBody ccw enable ovr) s

/-- SPN_GET_STATE (43_spindle.md R253): bit 2 PWM running, bit 1 ccw, bit 0 on. -/
def spnGetStateBody (s : State) : State :=
  returns (bitAt s.pwm.en 2 ||| bitAt s.sp.ccw 1 ||| bitAt s.sp.enabled 0) s

/-- The HOST step SPN_GET_STATE. -/
def execSpnGetState (s : State) : Result := hostCommand false spnGetStateBody s

end Sys2Proof.Machine
end

