-- ==== Sys2Proof/Machine/Stepper.lean ====
section
/-! DEFINITION. SPE, the stepper pulse engine (spec/41_stepper.md). -/
namespace Sys2Proof.Machine

/-- `LazySpindleRefresh()` (41_stepper.md R185). -/
def lazySpindleRefresh (s : State) : State :=
  if s.ac.varSpeed && s.spnPwmCmd != s.sp.applied then setSpeed s.spnPwmCmd s else s

/-- Starting the pulse itself (41_stepper.md R184): immediate mode writes the step outputs and arms the timer for
the width, delayed mode stashes them and arms it for the delay. -/
def startPulse (step : Byte) (s : State) : State :=
  if s.ac.delayed then
    { s with
      pe := { s.pe with stash := axisOperand s.par step, state := .waitDelay }
      pt := { run := true, cnt := 0, cmp := s.ac.delayTicks } }
  else
    { s with
      pe := { s.pe with stepL := axisOperand s.par step, state := .pulsing }
      pt := { run := true, cnt := 0, cmp := s.ac.widthTicks } }

/-- PULSE_START (41_stepper.md R184): refused unless the engine is idle; else direction, lazy refresh, pulse. -/
def pulseStartBody (dir step : Byte) (s : State) : State :=
  if s.pe.state ≠ .idle then raise .pulseOverrun s
  else
    startPulse step
      (lazySpindleRefresh { s with pe := { s.pe with dirL := axisOperand s.par dir } })

/-- The HOST step PULSE_START, gated. -/
def execPulseStart (dir step : Byte) (s : State) : Result := hostCommand true (pulseStartBody dir step) s

/-- What the pulse timer does at a match (41_stepper.md R186): the delay match writes the stashed steps and moves
the compare to delay + width, the width match restores the idle pattern and stops the timer. -/
def pulseMatch (s : State) : State :=
  match s.pe.state with
  | .waitDelay =>
    { s with
      pe := { s.pe with stepL := s.pe.stash, state := .pulsing }
      pt := { s.pt with cmp := s.ac.delayTicks + s.ac.widthTicks } }
  | .pulsing =>
    { s with
      pe := { s.pe with stepL := 0, state := .idle }
      pt := { s.pt with run := false } }
  | .idle => s

/-- One tick of the pulse timer (41_stepper.md R186); the match is on the incremented count. -/
def ptTickEffect (s : State) : State :=
  if s.pt.run then
    let u : State := { s with pt := { s.pt with cnt := s.pt.cnt + 1 } }
    if u.pt.cnt = u.pt.cmp then pulseMatch u else u
  else s

/-- @PT_TICK (41_stepper.md R186): with the timer stopped it changes nothing. -/
def execPtTick (s : State) : Result := .next (ptTickEffect s)

/-- STEP_WAKE (41_stepper.md R188). -/
def stepWakeBody (s : State) : State := { s with st := { s.st with en := true, cnt := 0 } }

/-- The HOST step STEP_WAKE. -/
def execStepWake (s : State) : Result := hostCommand false stepWakeBody s

/-- STEP_IDLE (41_stepper.md R189). -/
def stepIdleBody (s : State) : State := { s with st := { s.st with en := false } }

/-- The HOST step STEP_IDLE. -/
def execStepIdle (s : State) : Result := hostCommand false stepIdleBody s

/-- STEP_CYCLES (41_stepper.md R191). -/
def stepCyclesBody (s : State) : State := { s with st := { s.st with period := wideOperand s } }

/-- The HOST step STEP_CYCLES. -/
def execStepCycles (s : State) : Result := hostCommand false stepCyclesBody s

/-- One tick of the step cycle timer (41_stepper.md R190). -/
def stTickEffect (s : State) : State :=
  if s.st.en then
    if s.st.cnt + 1 ≥ s.st.period then deliver .step { s with st := { s.st with cnt := 0 } }
    else { s with st := { s.st with cnt := s.st.cnt + 1 } }
  else s

/-- @ST_TICK (41_stepper.md R190): with the timer off it changes nothing. -/
def execStTick (s : State) : Result := .next (stTickEffect s)

end Sys2Proof.Machine
end

