-- ==== Sys2Proof/Machine/Bus.lean ====
section
/-! DEFINITION. The two bus transactions RD and WR (spec/20_memory.md R83 to R85), the issue of a command through
CMD (spec/30_encoding.md R113), and accesses that are not 32 bits wide. -/
namespace Sys2Proof.Machine

/-- The HOST step of a decoded command. `decodeCommand` answers commands only, so the arms of the other
instructions are not reached; they answer as an illegal command does. -/
def runCommand (i : Instr) (s : State) : Result :=
  match i with
  | .rd _ _ => illegalCommand s
  | .wr _ _ => illegalCommand s
  | .nop => execNop s
  | .rxfree => execRxfree s
  | .rxflush => execRxflush s
  | .rxcancel => execRxcancel s
  | .putbyte c => execPutbyte c s
  | .getbyte => execGetbyte s
  | .suspend f => execSuspend f s
  | .rxovfclr => execRxovfclr s
  | .pulseStart dir step => execPulseStart dir step s
  | .stepWake => execStepWake s
  | .stepIdle => execStepIdle s
  | .stepCycles => execStepCycles s
  | .getLimits => execGetLimits s
  | .getControl => execGetControl s
  | .limitsEnable f => execLimitsEnable f s
  | .getProbe => execGetProbe s
  | .computePwm ovr => execComputePwm ovr s
  | .setSpeed duty => execSetSpeed duty s
  | .setState ccw enable ovr => execSetState ccw enable ovr s
  | .spnGetState => execSpnGetState s
  | .cfgApply => execCfgApply s
  | .coolantSet mist flood => execCoolantSet mist flood s
  | .coolantGet => execCoolantGet s
  | .delayMs cb ms => execDelayMs cb ms s
  | .rxArrive _ _ => illegalCommand s
  | .lineTake => illegalCommand s
  | .txIrq => illegalCommand s
  | .putRetry _ => illegalCommand s
  | .ptTick => illegalCommand s
  | .dbTick => illegalCommand s
  | .limIn _ _ => illegalCommand s
  | .ctlIn _ _ => illegalCommand s
  | .prbIn _ _ => illegalCommand s
  | .stTick => illegalCommand s
  | .msTick => illegalCommand s

/-- A word written to CMD: the command it encodes, or the illegal-command refusal (30_encoding.md R113). -/
def issueWord (v : Word) (s : State) : Result :=
  match decodeCommand v with
  | some i => runCommand i s
  | none => illegalCommand s

/-- The word the HOST gets from a read goes to `rdata` (assumption 9). -/
def readReturns (v : Word) (s : State) : State := { s with rdata := v }

/-- RD (20_memory.md R84): legal in every state, with no side effect but ERR.BUS where the access is refused. -/
def execRd (addr : Byte) (_wdata : Word) (s : State) : Result :=
  match Reg.ofAddr addr with
  | none => .next (readReturns 0 (raise .bus s))
  | some r => .next (readReturns (r.read s) s)

/-- WR (20_memory.md R85): by the kind of the register at the address. -/
def execWr (addr : Byte) (wdata : Word) (s : State) : Result :=
  match Reg.ofAddr addr with
  | none => .next (raise .bus s)
  | some r =>
    match r.kind with
    | .readOnly => .next (raise .bus s)
    | .writeOnly => issueWord wdata s
    | .readWrite => .next (r.write wdata s)
    | .writeOneToClear => .next (r.write wdata s)

/-- An access that is not 32 bits wide (20_memory.md R83): a read returns 0, a write changes nothing, ERR.BUS is
set. -/
def offWidthAccess (write : Bool) (s : State) : State :=
  if write then raise .bus s else readReturns 0 (raise .bus s)

end Sys2Proof.Machine
end

