-- ==== Sys2Proof/Machine/Dispatch.lean ====
section
/-! DEFINITION. The meaning of every instruction: one arm per constructor. -/
namespace Sys2Proof.Machine

def exec (i : Instr) (s : State) : Host.Outcome State Fault Refusal :=
  match i with
  | .rd addr wdata => Sys2Proof.Machine.execRd addr wdata s
  | .wr addr wdata => Sys2Proof.Machine.execWr addr wdata s
  | .nop => Sys2Proof.Machine.execNop s
  | .rxfree => Sys2Proof.Machine.execRxfree s
  | .rxflush => Sys2Proof.Machine.execRxflush s
  | .rxcancel => Sys2Proof.Machine.execRxcancel s
  | .putbyte c => Sys2Proof.Machine.execPutbyte c s
  | .getbyte => Sys2Proof.Machine.execGetbyte s
  | .suspend f => Sys2Proof.Machine.execSuspend f s
  | .rxovfclr => Sys2Proof.Machine.execRxovfclr s
  | .pulseStart dir step => Sys2Proof.Machine.execPulseStart dir step s
  | .stepWake => Sys2Proof.Machine.execStepWake s
  | .stepIdle => Sys2Proof.Machine.execStepIdle s
  | .stepCycles => Sys2Proof.Machine.execStepCycles s
  | .getLimits => Sys2Proof.Machine.execGetLimits s
  | .getControl => Sys2Proof.Machine.execGetControl s
  | .limitsEnable f => Sys2Proof.Machine.execLimitsEnable f s
  | .getProbe => Sys2Proof.Machine.execGetProbe s
  | .computePwm ovr => Sys2Proof.Machine.execComputePwm ovr s
  | .setSpeed duty => Sys2Proof.Machine.execSetSpeed duty s
  | .setState ccw enable ovr => Sys2Proof.Machine.execSetState ccw enable ovr s
  | .spnGetState => Sys2Proof.Machine.execSpnGetState s
  | .cfgApply => Sys2Proof.Machine.execCfgApply s
  | .coolantSet mist flood => Sys2Proof.Machine.execCoolantSet mist flood s
  | .coolantGet => Sys2Proof.Machine.execCoolantGet s
  | .delayMs cb ms => Sys2Proof.Machine.execDelayMs cb ms s
  | .rxArrive handled b => Sys2Proof.Machine.execRxArrive handled b s
  | .lineTake => Sys2Proof.Machine.execLineTake s
  | .txIrq => Sys2Proof.Machine.execTxIrq s
  | .putRetry cont => Sys2Proof.Machine.execPutRetry cont s
  | .ptTick => Sys2Proof.Machine.execPtTick s
  | .dbTick => Sys2Proof.Machine.execDbTick s
  | .limIn float level => Sys2Proof.Machine.execLimIn float level s
  | .ctlIn float level => Sys2Proof.Machine.execCtlIn float level s
  | .prbIn float level => Sys2Proof.Machine.execPrbIn float level s
  | .stTick => Sys2Proof.Machine.execStTick s
  | .msTick => Sys2Proof.Machine.execMsTick s

end Sys2Proof.Machine
end

