-- ==== Sys2Proof/Machine/Reset.lean ====
section
/-! DEFINITION. Reset with every value that reset leaves unspecified supplied from outside
(spec/70_reset_and_hazards.md R330 to R332). -/
namespace Sys2Proof.Machine

/-- The unspecified values that State.reset names: no buffer cell written, `tdr` and `tx.pend` 0, every pin driven 0
(assumptions 10 to 12). -/
def Unspecified.zero : Unspecified where
  rxData := []
  txData := []
  bkData := []
  tdr := 0
  txPend := 0
  limFloat := 0
  limLevel := 0
  ctlFloat := 0
  ctlLevel := 0
  prbFloat := false
  prbLevel := false

/-- The state right after reset of the machine with parameters `p`, the unspecified values being `u`: the table of
10_state.md R65. -/
def resetWith (p : Params) (u : Unspecified) : State :=
  { State.reset with
    par := p
    rx := { State.reset.rx with data := Memory.ofBytes 0 (u.rxData.take p.rxCap) }
    bk := { State.reset.bk with data := Memory.ofBytes 0 (u.bkData.take p.rxCap) }
    tx := { State.reset.tx with data := Memory.ofBytes 0 (u.txData.take p.txCap), pend := u.txPend }
    tdr := u.tdr
    limDrv := drivesOf p.nAxes u.limFloat u.limLevel
    ctlDrv := drivesOf 4 u.ctlFloat u.ctlLevel
    prbDrv := driveOf u.prbFloat u.prbLevel }

/-- What one pulse on rst_n does: the state after reset, whatever the state before it was; the inputs to come are the
outside world's and stay (assumption 13). -/
def resetInput (u : Unspecified) (s : State) : State := { resetWith s.par u with inbox := s.inbox }

end Sys2Proof.Machine
end

