-- ==== Sys2Proof/Machine/Ports.lean ====
section
/-! DEFINITION. What one input does, and the input that stands for an instruction given as a number. -/
namespace Sys2Proof.Machine

/-- One input, taken: a frame runs the instruction it decodes to; a 32-bit word that is no command is a `WR` to CMD of
an illegal word (30_encoding.md R118); a stimulus code without a row is no step (93 U15). -/
def takeInput (x : Input) (s : State) : Result :=
  match x with
  | .frame f =>
    match decode f with
    | .ok i => exec i s
    | .error .illegalCommand => illegalCommand s
    | .error .noSuchStimulus => .refused .noSuchStimulus
  | .offWidth write => .next (offWidthAccess write s)
  | .reset u => .next (resetInput u s)

/-- One step: the oldest input is taken; with none to come RTCC waits and nothing changes (assumption 5). -/
def stepOnce (s : State) : Result :=
  match s.inbox with
  | [] => .next s
  | x :: rest => takeInput x { s with inbox := rest }

/-- The frame of an instruction of `nbits` bits whose bits are `w`, as the next input; a number that is no frame
adds none. -/
def placeNext (s : State) (nbits w : Nat) : State :=
  match frameOf nbits w with
  | some f => { s with inbox := .frame f :: s.inbox }
  | none => s

end Sys2Proof.Machine
end

