-- ==== Sys2Proof/Machine/Step.lean ====
section
/-! DEFINITION. One step of the machine, and placing an instruction where the next step takes it. -/
namespace Sys2Proof.Machine

/-- One atomic step of one agent, the one whose input is the oldest in the inbox (00_scope.md R7, R9). -/
def step (s : State) : Host.Outcome State Fault Refusal := stepOnce s

/-- `s` with the instruction of `nbits` bits `w` as the next input. -/
def State.withFetchWord (s : State) (nbits w : Nat) : State := placeNext s nbits w

end Sys2Proof.Machine
end

