-- ==== Sys2Proof/Machine/Pseudo.lean ====
section
/-! DEFINITION. The pseudo-operations of spec/30_encoding.md R121 and spec/40_serial.md R147: those without a loop as
the list of instructions they expand to, and running such a list; WRITESTRING and WRITEBYTES, whose next instruction
depends on what a read of RESULT returns, as a HOST that takes one instruction a turn while other agents step between
its turns. -/
namespace Sys2Proof.Machine

/-! ## Lists of instructions -/

/-- CFG: a write to a CFG_* register (30_encoding.md R121). -/
def cfgWrite (r : Reg) (v : Word) : List Instr := [.wr r.addr v]

/-- CLRERR (30_encoding.md R121). -/
def clrErr : List Instr := [.wr Reg.err.addr 0x3FF]

/-- ACK (30_encoding.md R121). -/
def ack (bits : Word) : List Instr := [.wr Reg.ipr.addr bits]

/-- @TICKS (30_encoding.md R121). -/
def ticks (n : Nat) : List Instr := List.replicate n .ptTick

/-- @RX: each byte arrives unclaimed (30_encoding.md R121). -/
def rxBytes (s : List Byte) : List Instr := s.map fun b => .rxArrive false b

/-- COMPUTE (30_encoding.md R121). -/
def computeOps (rpm : Word) (ovr : Byte) : List Instr := [.wr Reg.arg0.addr rpm, .computePwm ovr]

/-- SPINDLE (30_encoding.md R121). -/
def spindleOps (enable : Bool) (rpm : Word) (ccw : Bool) (ovr : Byte) : List Instr :=
  [.wr Reg.arg0.addr rpm, .setState ccw enable ovr]

/-- Running instructions one after another, stopping at the first fault or refusal. -/
def runInstrs : List Instr → State → Result
  | [], s => .next s
  | i :: rest, s =>
    match exec i s with
    | .next t => runInstrs rest t
    | .fault r => .fault r
    | .refused r => .refused r

/-! ## WRITESTRING and WRITEBYTES -/

/-- Where the HOST stands in a WRITESTRING or WRITEBYTES: the bytes whose PutAndWait has not begun, and whether it is
in the wait of the one that has, reading RESULT. -/
structure PutRun where
  todo : List Byte
  waiting : Bool
  deriving DecidableEq, Repr

/-- WRITESTRING: a PutAndWait of each byte in order, stopping before the first 0x00 (40_serial.md R147). -/
def writeString (text : List Byte) : PutRun := { todo := text.takeWhile (· != 0), waiting := false }

/-- WRITEBYTES: a PutAndWait of `text[i]` for `i` from 0 to `len - 1`, 0x00 like any other (40_serial.md R147). What
`text[i]` is past the end of `text` the spec does not say: DESIGN CHOICE, all `len` bytes are put, and those past the
end are free values, the argument `past` (assumption 26). -/
def writeBytes (text : List Byte) (len : Nat) (past : Nat → Byte) : PutRun :=
  { todo := (List.range len).map fun i => text.getD i (past i), waiting := false }

/-- The instruction the HOST issues next: a read of RESULT in a wait, else the PUTBYTE of the next byte, else none
(40_serial.md R147, `PutAndWait`). -/
def PutRun.issues (r : PutRun) : Option Instr :=
  if r.waiting then some (.rd Reg.result.addr 0) else r.todo.head?.map Instr.putbyte

/-- Where the HOST stands after that instruction, by the word the read returned: "read RESULT until it is not 2"; a
RESULT of 0, a byte not delivered, ends the wait as 1 does (40_serial.md R147). -/
def PutRun.after (r : PutRun) (rdata : Word) : PutRun :=
  if r.waiting then { r with waiting := rdata == 2 }
  else { todo := r.todo.tail, waiting := !r.todo.isEmpty }

/-- What a step of the HOST and the machine together answers. -/
abbrev PutResult := Host.Outcome (PutRun × State) Fault Refusal

/-- One turn of the HOST; nothing happens once every byte is put and its wait over. -/
def putAndWait (r : PutRun) (s : State) : PutResult :=
  match r.issues with
  | none => .next (r, s)
  | some i =>
    match exec i s with
    | .next t => .next (r.after t.rdata, t)
    | .fault e => .fault e
    | .refused e => .refused e

/-- Whose step comes next while a WRITESTRING or WRITEBYTES runs (00_scope.md R9). -/
inductive Turn where
  | host
  | other (i : Instr)
  deriving DecidableEq, Repr

/-- One step of the HOST or of another agent. -/
def takeTurn (turn : Turn) (r : PutRun) (s : State) : PutResult :=
  match turn with
  | .host => putAndWait r s
  | .other i =>
    match exec i s with
    | .next t => .next (r, t)
    | .fault e => .fault e
    | .refused e => .refused e

/-- Turns one after another, stopping at the first fault or refusal. How many reads a wait takes is fixed by nothing
but the turns: it ends when RESULT is read as something else than 2 (assumption 24). -/
def runTurns : List Turn → PutRun → State → PutResult
  | [], r, s => .next (r, s)
  | turn :: rest, r, s =>
    match takeTurn turn r s with
    | .next (r', t) => runTurns rest r' t
    | .fault e => .fault e
    | .refused e => .refused e

end Sys2Proof.Machine
end

