-- ==== Sys2Proof/WellFormed.lean ====
section
/-! DEFINITION. What makes an instruction and a parameter record well formed. The operand fields of Instr have
exactly the widths of spec/30_encoding.md R112 and R117, so one check is left for instructions: the data field of a
read, which R111 says is 0. The parameter checks are the "constraint" column of spec/00_scope.md R11. -/
namespace Sys2Proof

/-- An instruction as a HOST or a test bench issues it: a read carries `wdata` = 0 (30_encoding.md R111). -/
def Instr.wellFormed : Instr → Bool
  | .rd _ wdata => wdata == 0
  | .wr _ _ => true
  | .nop => true
  | .rxfree => true
  | .rxflush => true
  | .rxcancel => true
  | .putbyte _ => true
  | .getbyte => true
  | .suspend _ => true
  | .rxovfclr => true
  | .pulseStart _ _ => true
  | .stepWake => true
  | .stepIdle => true
  | .stepCycles => true
  | .getLimits => true
  | .getControl => true
  | .limitsEnable _ => true
  | .getProbe => true
  | .computePwm _ => true
  | .setSpeed _ => true
  | .setState _ _ _ => true
  | .spnGetState => true
  | .cfgApply => true
  | .coolantSet _ _ => true
  | .coolantGet => true
  | .delayMs _ _ => true
  | .rxArrive _ _ => true
  | .lineTake => true
  | .txIrq => true
  | .putRetry _ => true
  | .ptTick => true
  | .dbTick => true
  | .limIn _ _ => true
  | .ctlIn _ _ => true
  | .prbIn _ _ => true
  | .stTick => true
  | .msTick => true

/-- The constraints of 00_scope.md R11. A capacity is a power of two by construction and at least 2; the upper bound
31 on its logarithm is DEDUCED: RXFREE and the pointer mirrors put capacities and indices into 32-bit registers
(assumption 3). -/
def Params.valid (p : Params) : Bool :=
  decide (1 ≤ p.nAxes) && decide (p.nAxes ≤ 8)
    && decide (1 ≤ p.rxBits) && decide (p.rxBits ≤ 31)
    && decide (1 ≤ p.txBits) && decide (p.txBits ≤ 31)
    && decide (p.toolackByte ≠ p.canByte)
    && decide (1 ≤ p.debounceTicks.toNat)
    && decide (1 ≤ p.ptTicksPerUs) && decide (p.ptTicksPerUs ≤ 32767)
    && decide (2 ≤ p.fPwm)

end Sys2Proof
end

