-- ==== Sys2Proof/Safety.lean ====
section
/-! DEFINITION. The terms claims are stated in: agents, the instruction a HOST step issues, when a step is enabled,
the invariants the spec states (spec/10_state.md R24, R31, R33, R38, R41; spec/40_serial.md R154; spec/41_stepper.md
R193; spec/44_aux.md R270) and the byte streams of spec/40_serial.md R155 and R156. -/
namespace Sys2Proof.Machine

/-! ## Who steps, and when -/

/-- A HOST command, one of the 24 rows of 30_encoding.md R114. -/
def isCommand : Instr → Bool
  | .rd _ _ => false
  | .wr _ _ => false
  | .nop => true
  | .rxfree => true
  | .rxflush => true
  | .rxcancel => true
  | .putbyte _ => true
  | .getbyte => true
  | .suspend _ => true
  | .rxovfclr => true
  | .pulseStart _ _ => true
  | .stepWake => true
  | .stepIdle => true
  | .stepCycles => true
  | .getLimits => true
  | .getControl => true
  | .limitsEnable _ => true
  | .getProbe => true
  | .computePwm _ => true
  | .setSpeed _ => true
  | .setState _ _ _ => true
  | .spnGetState => true
  | .cfgApply => true
  | .coolantSet _ _ => true
  | .coolantGet => true
  | .delayMs _ _ => true
  | .rxArrive _ _ => false
  | .lineTake => false
  | .txIrq => false
  | .putRetry _ => false
  | .ptTick => false
  | .dbTick => false
  | .limIn _ _ => false
  | .ctlIn _ _ => false
  | .prbIn _ _ => false
  | .stTick => false
  | .msTick => false

/-- A step of the HOST: a bus transaction or a command (00_scope.md R9); every other instruction is a stimulus, a step
of another agent. -/
def isHostStep : Instr → Bool
  | .rd _ _ => true
  | .wr _ _ => true
  | i => isCommand i

/-- The gated commands (60_exceptions.md R293). -/
def isGated : Instr → Bool
  | .pulseStart _ _ => true
  | .computePwm _ => true
  | .setSpeed _ => true
  | .setState _ _ _ => true
  | _ => false

/-- The instruction a step carries out: a `WR` to CMD of a command's word is that command (30_encoding.md R113), any
other step is itself. -/
def issued : Instr → Instr
  | .wr addr wdata => if addr = 0x00 then (decodeCommand wdata).getD (.wr addr wdata) else .wr addr wdata
  | i => i

/-- The enabling conditions of 40_serial.md R146, R151 and R152; every other step is possible in every state
(70_reset_and_hazards.md R333). -/
def enabled (i : Instr) (s : State) : Bool :=
  match i with
  | .lineTake => s.tdrFull
  | .txIrq => s.tx.irqEn && !s.tdrFull
  | .putRetry _ => s.tx.blocked
  | _ => true

/-- A command that is neither refused as BUSY nor as NOT_CONFIGURED (20_memory.md R85; 30_encoding.md R113). -/
def accepts (i : Instr) (s : State) : Bool := !s.tx.blocked && (!isGated i || s.configured)

/-! ## Invariants -/

/-- A per-axis value has no bit above N_AXES-1. -/
def onAxes (p : Params) (v : BitVec 8) : Bool := (v &&& p.axisMask) == v

/-- Indices below the capacities (40_serial.md R154 b) and buffers in canonical form, no cell at or above the
capacity (20_memory.md R90). -/
structure BufferInv (s : State) : Prop where
  rx_head : s.rx.head < s.par.rxCap
  rx_tail : s.rx.tail < s.par.rxCap
  bk_head : s.bk.head < s.par.rxCap
  bk_tail : s.bk.tail < s.par.rxCap
  tx_head : s.tx.head < s.par.txCap
  tx_tail : s.tx.tail < s.par.txCap
  rx_wf : s.rx.data.wf = true
  bk_wf : s.bk.data.wf = true
  tx_wf : s.tx.data.wf = true
  rx_below : s.rx.data.below s.par.rxCap = true
  bk_below : s.bk.data.below s.par.rxCap = true
  tx_below : s.tx.data.below s.par.txCap = true

/-- 40_serial.md R154 (a) and (c): the transmit interrupt is enabled only with a byte buffered, and a blocked
PUTBYTE whose buffer is full has it enabled. `tx.ovf` stays 0 (10_state.md R31). -/
structure TransmitInv (s : State) : Prop where
  irq_nonempty : s.tx.irqEn = true → s.tx.head ≠ s.tx.tail
  nonempty_irq : s.tx.head ≠ s.tx.tail → s.tx.irqEn = true
  ovf_zero : s.tx.ovf = false

/-- What every applied configuration satisfies (10_state.md R41; 44_aux.md R270, R271): "minValue <= maxValue <
period", the gradient, a pulse of at least one tick, the mode bit, a timer sum that does not wrap (10_state.md
R34). -/
structure ConfigInv (s : State) : Prop where
  min_le_max : s.configured = true → s.pw.minValue.toNat ≤ s.pw.maxValue.toNat
  max_lt_period : s.configured = true → s.pw.maxValue.toNat < s.pw.period.toNat
  max_pos : s.configured = true → 1 ≤ s.pw.maxValue.toNat
  off_zero : s.pw.offValue = 0
  gnum_eq : s.configured = true → s.pw.gnum.toNat = s.pw.maxValue.toNat - s.pw.minValue.toNat
  gden_eq : s.configured = true → s.pw.gden.toNat = s.ac.rpmMax.toNat - s.ac.rpmMin.toNat
  width_pos : s.configured = true → 1 ≤ s.ac.widthTicks.toNat
  delayed_iff : s.configured = true → (s.ac.delayed = true ↔ 1 ≤ s.ac.delayTicks.toNat)
  sum_fits : s.configured = true → s.ac.delayTicks.toNat + s.ac.widthTicks.toNat < 2 ^ 32

/-- The pulse engine and its timer (41_stepper.md R193), with the compare value of each state. -/
structure PulseInv (s : State) : Prop where
  run_iff : s.pt.run = true ↔ s.pe.state ≠ .idle
  step_pulsing : s.pe.stepL ≠ 0 → s.pe.state = .pulsing
  cnt_lt : s.pt.run = true → s.pt.cnt.toNat < s.pt.cmp.toNat
  active_configured : s.pe.state ≠ .idle → s.configured = true
  wait_delayed : s.pe.state = .waitDelay → s.ac.delayed = true
  wait_cmp : s.pe.state = .waitDelay → s.pt.cmp = s.ac.delayTicks
  pulsing_cmp : s.pe.state = .pulsing →
    s.pt.cmp = if s.ac.delayed then s.ac.delayTicks + s.ac.widthTicks else s.ac.widthTicks

/-- `db.cnt` is non-zero iff `db.state` is COUNTING (10_state.md R38). -/
structure DebounceInv (s : State) : Prop where
  counting_iff : s.db.cnt ≠ 0 ↔ s.db.state = .counting

/-- Per-axis fields have N_AXES bits and the drives one entry a pin (10_state.md R33, R36, R39, R43, R54, R55);
CONTROL_EVT holds at most one bit (60_exceptions.md R299); bit 3 of CFG_FLAGS is 0 (10_state.md R58). -/
structure WidthInv (s : State) : Prop where
  step_axes : onAxes s.par s.pe.stepL = true
  dir_axes : onAxes s.par s.pe.dirL = true
  stash_axes : onAxes s.par s.pe.stash = true
  limit_axes : onAxes s.par s.limitEvt = true
  ac_step : onAxes s.par s.ac.stepInv = true
  ac_dir : onAxes s.par s.ac.dirInv = true
  ac_lim : onAxes s.par s.ac.limInv = true
  ac_pull : onAxes s.par s.ac.limPull = true
  cfg_step : onAxes s.par s.cfg.stepInv = true
  cfg_dir : onAxes s.par s.cfg.dirInv = true
  cfg_lim : onAxes s.par s.cfg.limInv = true
  cfg_pull : onAxes s.par s.cfg.limPull = true
  flags_named : s.cfg.flags &&& flagsMask = s.cfg.flags
  control_one : s.controlEvt ∈ [0b0000#4, 0b0001#4, 0b0010#4, 0b0100#4, 0b1000#4]
  lim_pins : s.limDrv.length = s.par.nAxes
  ctl_pins : s.ctlDrv.length = 4

/-- All of them, over legal parameters. -/
structure Inv (s : State) : Prop where
  par_valid : s.par.valid = true
  buffers : BufferInv s
  transmit : TransmitInv s
  config : ConfigInv s
  pulse : PulseInv s
  debounce : DebounceInv s
  widths : WidthInv s

/-! ## Byte streams -/

/-- The bytes the transmit buffer holds, in order (10_state.md R24). -/
def txBuffered (s : State) : List Byte :=
  window s.tx.data s.par.txMask (occupied s.tx.head s.tx.tail s.par.txMask) s.tx.tail

/-- `txLine`, then `tdr` if it is full, then the buffer (40_serial.md R155). -/
def outStream (s : State) : List Byte :=
  s.txLine ++ (if s.tdrFull then [s.tdr] else []) ++ txBuffered s

/-- The bytes a step delivers: a PUTBYTE that ends with RESULT = 1, at once or through PUT_RETRY (40_serial.md
R155). -/
def delivered (i : Instr) (s : State) : List Byte :=
  match issued i with
  | .putbyte c => if s.tx.blocked || (!(txEmpty s && !s.tdrFull) && txFull s) then [] else [c]
  | .putRetry _ => if s.tx.blocked && !txFull s then [s.tx.pend] else []
  | _ => []

/-- The unread bytes of the live receive buffer, in order (10_state.md R24). -/
def rxUnread (s : State) : List Byte :=
  window s.rx.data s.par.rxMask (occupied s.rx.head s.rx.tail s.par.rxMask) s.rx.tail

/-- The bytes the backup snapshot holds, in order (10_state.md R25). -/
def bkUnread (s : State) : List Byte :=
  window s.bk.data s.par.rxMask (occupied s.bk.head s.bk.tail s.par.rxMask) s.bk.tail

/-- The byte of a PUTBYTE that waits for space (40_serial.md R144, R146). -/
def parked (s : State) : List Byte := if s.tx.blocked then [s.tx.pend] else []

end Sys2Proof.Machine
end

