-- ==== Sys2Proof/Certificates/Slice0/Obligations.lean ====
section
/-! DEFINITION. The statements for the provers. -/

open Sys2Proof Sys2Proof.Machine

/-! ## Encoding and decoding -/

/-- 30_encoding.md R111, R112, R114, R117: decoding the encoding of any instruction gives it back, with every operand
at every value. For a RD whose data field is not 0 this rests on the model's choice to keep that field as an operand
(assumption 21); R111 says only that it is 0 and ignored on a read. -/
def Obligations.DecodeInvertsEncode : Prop :=
  ∀ i : Instr, decode (encode i) = .ok i

/-- The other direction: a frame that decodes to an instruction is that instruction's encoding, so no word has two
meanings and the instruction keeps every bit. For a read frame whose bits 31:0 are not all 0 this is the model's choice
and no rule of the spec: R111 says the field is "0 and ignored on a read", and the model keeps it as an operand that
the meaning of RD ignores (assumption 21). -/
def Obligations.EncodeInvertsDecode : Prop :=
  ∀ (f : Frame) (i : Instr), decode f = .ok i → encode i = f

/-- 30_encoding.md R113: at most one row of the two tables matches a word. -/
def Obligations.AtMostOneRowMatches : Prop :=
  ∀ w : Word, ((commandRows ++ stimulusRows).filter fun r => r.hits w).length ≤ 1

/-- Words written out from R111, R114 and R117 (95 V-ENC-1, P1, P4) decode to the instructions they stand for. -/
def Obligations.WrittenOutWordsDecode : Prop :=
  decodeTableWord 32 0b00000000000000000000000000000000 = some .nop ∧
  decodeTableWord 32 0b00000100000000000000000001000001 = some (.putbyte 0x41) ∧
  decodeTableWord 32 0b00010000000000000000000100000011 = some (.pulseStart 0b001 0b011) ∧
  decodeTableWord 32 0b00100010000000000000000000000001 = some (.limitsEnable true) ∧
  decodeTableWord 32 0b00110010000000000000001100110010 = some (.setState true true 50) ∧
  decodeTableWord 32 0b01000011000000010000000000000010 = some (.delayMs true 2) ∧
  decodeTableWord 32 0b10000110000000000000001000000001 = some (.limIn 0b010 0b001) ∧
  decodeTableWord 48 0x10400001770 = some (.wr 0x04 6000) ∧
  decodeTableWord 48 0x01000000000 = some (.rd 0x10 0) ∧
  decodeTableWord 32 0x8B000000 = none

/-- The reserved bits of the sub-format of an `op` (30_encoding.md R112), none for an unassigned `op` (R114). -/
def Sys2Proof.reservedBits (op : Nat) : Option Word :=
  if op ∈ [0x00, 0x01, 0x02, 0x03, 0x05, 0x07, 0x11, 0x12, 0x13, 0x20, 0x21, 0x23, 0x33, 0x40, 0x42] then
    some 0x00FFFFFF
  else if op ∈ [0x04, 0x30] then some 0x00FFFF00
  else if op ∈ [0x06, 0x22] then some 0x00FFFFFE
  else if op = 0x10 then some 0x00FF0000
  else if op = 0x31 then some 0x00FF0000
  else if op = 0x32 then some 0x00FFFC00
  else if op = 0x41 then some 0x00FFFFFC
  else if op = 0x43 then some 0x00FE0000
  else none

/-- 30_encoding.md R118: a command word is illegal exactly if its `op` is unassigned or a reserved bit of its
sub-format is 1; written to CMD it sets ERR.ILLEGAL_CMD and does nothing else. -/
def Obligations.IllegalWordsRefused : Prop :=
  ∀ (w : Word) (s : State), s.tx.blocked = false →
    (decodeCommand w = none ↔
      ∀ m, reservedBits (w.toNat / 2 ^ 24) = some m → w &&& m ≠ 0) ∧
    (decodeCommand w = none → exec (.wr 0x00 w) s = .next { s with err := s.err ||| 0x001 })

/-! ## Steps -/

/-- A step runs the decoded instruction: the oldest input, when it is a frame that decodes to a well-formed
instruction, is run in the state without it. That inputs stand in a list is the model's choice (assumption 4). -/
def Obligations.StepRunsDecodedInstruction : Prop :=
  ∀ (s : State) (f : Frame) (i : Instr) (rest : List Input),
    s.inbox = .frame f :: rest → decode f = .ok i → i.wellFormed = true →
    step s = exec i { s with inbox := rest }

/-- 30_encoding.md R113, R120: a WR of a command's word to CMD is that command. -/
def Obligations.WriteToCmdRunsCommand : Prop :=
  ∀ (i : Instr) (w : Word) (s : State), isCommand i = true → encode i = .word w →
    exec (.wr 0x00 w) s = exec i s

/-- 40_serial.md R146, R151, R152 and 70_reset_and_hazards.md R333: an instruction answers a next state exactly when
it is enabled; nothing is ever refused, and an agent that is not enabled takes no step. That the model then answers
with a fault is its own choice (assumption 7). -/
def Obligations.StepsExactlyWhenEnabled : Prop :=
  ∀ (i : Instr) (s : State),
    (enabled i s = true → ∃ t, exec i s = .next t) ∧
    (enabled i s = false → ∃ a, exec i s = .fault (.notEnabled a))

/-! ## Refusals -/

/-- 20_memory.md R85, 60_exceptions.md R290, R293: while a PUTBYTE waits every command, and every word written to CMD,
is refused with BUSY; else the four gated commands are refused with NOT_CONFIGURED while `configured` = 0. A refusal
changes nothing else. -/
def Obligations.CommandsRefusedBeforeTheirBody : Prop :=
  ∀ (i : Instr) (w : Word) (s : State),
    (s.tx.blocked = true →
      (isCommand i = true → exec i s = .next { s with err := s.err ||| 0x002 }) ∧
      exec (.wr 0x00 w) s = .next { s with err := s.err ||| 0x002 }) ∧
    (s.tx.blocked = false → s.configured = false →
      ((∃ dir step, i = .pulseStart dir step) ∨ (∃ ovr, i = .computePwm ovr) ∨ (∃ duty, i = .setSpeed duty) ∨
        ∃ ccw enable ovr, i = .setState ccw enable ovr) →
      exec i s = .next { s with err := s.err ||| 0x004 })

/-- An address no register has (20_memory.md R83, R88). -/
def Sys2Proof.unmappedAddress (a : Nat) : Prop :=
  a % 4 ≠ 0 ∨ (0x2C ≤ a ∧ a ≤ 0x3F) ∨ (0x84 ≤ a ∧ a ≤ 0x8F) ∨ (0xBC ≤ a ∧ a ≤ 0xBF) ∨ 0xE3 < a

/-- The read-only registers' addresses (10_state.md R45). -/
def Sys2Proof.readOnlyAddresses : List Byte :=
  [0x08, 0x0C, 0x10, 0x20, 0x24, 0x90, 0x94, 0x98, 0x9C, 0xA0, 0xA4, 0xA8, 0xAC, 0xB0, 0xB4, 0xB8,
    0xC0, 0xC4, 0xC8, 0xCC, 0xD0, 0xD4, 0xD8, 0xDC, 0xE0]

/-- 20_memory.md R83, R84, R85: an access to a misaligned, unmapped or out-of-range address, one that is not 32 bits
wide, and a write to a read-only register set ERR.BUS and change nothing else; the reads return 0. The input for an
access of another width and the field `rdata` are the model's (assumptions 9, 14). -/
def Obligations.BadAccessesSetBusError : Prop :=
  ∀ (a : Byte) (v : Word) (s : State),
    (unmappedAddress a.toNat →
      exec (.rd a v) s = .next { s with rdata := 0, err := s.err ||| 0x080 } ∧
      exec (.wr a v) s = .next { s with err := s.err ||| 0x080 }) ∧
    (a ∈ readOnlyAddresses → exec (.wr a v) s = .next { s with err := s.err ||| 0x080 }) ∧
    (∀ rest, s.inbox = .offWidth false :: rest →
      step s = .next { s with inbox := rest, rdata := 0, err := s.err ||| 0x080 }) ∧
    (∀ rest, s.inbox = .offWidth true :: rest →
      step s = .next { s with inbox := rest, err := s.err ||| 0x080 })

/-! ## The register bank -/

/-- What the registers other than STATUS, PIN_OUT and PIN_IN read as (10_state.md R45 to R59). -/
def Sys2Proof.readTable (s : State) : List (Byte × Word) :=
  [ (0x00, 0), (0x04, s.arg0), (0x08, s.result), (0x0C, s.result1), (0x14, s.err.setWidth 32),
    (0x18, s.ier.setWidth 32), (0x1C, s.ipr.setWidth 32), (0x20, s.limitEvt.setWidth 32),
    (0x24, s.controlEvt.setWidth 32), (0x28, s.spnPwmCmd.setWidth 32) ] ++
  [ (0x40, s.cfg.stepInv.setWidth 32), (0x44, s.cfg.dirInv.setWidth 32), (0x48, s.cfg.limInv.setWidth 32),
    (0x4C, s.cfg.limPull.setWidth 32), (0x50, s.cfg.ctrlInv.setWidth 32), (0x54, s.cfg.ctrlPull.setWidth 32),
    (0x58, s.cfg.probe.setWidth 32), (0x5C, s.cfg.spnInv.setWidth 32), (0x60, s.cfg.coolInv.setWidth 32),
    (0x64, s.cfg.pulseUs.setWidth 32), (0x68, s.cfg.delayUs.setWidth 32), (0x6C, s.cfg.pwmFreq),
    (0x70, s.cfg.pwmMinPct.setWidth 32), (0x74, s.cfg.pwmMaxPct.setWidth 32), (0x78, s.cfg.rpmMin),
    (0x7C, s.cfg.rpmMax), (0x80, s.cfg.flags.setWidth 32) ] ++
  [ (0x90, s.pw.period.setWidth 32), (0x94, s.pw.offValue.setWidth 32), (0x98, s.pw.minValue.setWidth 32),
    (0x9C, s.pw.maxValue.setWidth 32), (0xA0, s.pw.gnum.setWidth 32), (0xA4, s.pw.gden),
    (0xA8, s.pwm.duty.setWidth 32), (0xAC, s.sp.applied.setWidth 32), (0xB8, s.st.period),
    (0xC0, BitVec.ofNat 32 s.rx.head), (0xC4, BitVec.ofNat 32 s.rx.tail), (0xC8, BitVec.ofNat 32 s.tx.head),
    (0xCC, BitVec.ofNat 32 s.tx.tail), (0xD0, BitVec.ofNat 32 s.bk.head), (0xD4, BitVec.ofNat 32 s.bk.tail),
    (0xD8, s.db.cnt.setWidth 32), (0xDC, s.pt.cnt), (0xE0, s.pt.cmp) ]

/-- 20_memory.md R84, 10_state.md R45 to R59: a read returns the register's value zero-extended, in every state, and
changes nothing else. What a read returned stands in `rdata`, the model's field (assumption 9). -/
def Obligations.ReadsReturnRegisters : Prop :=
  ∀ (s : State) (w : Word), ∀ p ∈ readTable s, exec (.rd p.1 w) s = .next { s with rdata := p.2 }

/-- 10_state.md R49: the bits of STATUS, in the word a read returns (assumption 9). -/
def Obligations.StatusBitsReadState : Prop :=
  ∀ (s : State) (w : Word), ∃ v : Word,
    exec (.rd 0x10 w) s = .next { s with rdata := v } ∧
    v.getLsbD 0 = s.rx.ovf ∧ v.getLsbD 1 = s.rx.bkActive ∧ v.getLsbD 2 = s.rx.suspended ∧
    v.getLsbD 3 = decide (s.rx.head ≠ s.rx.tail) ∧ v.getLsbD 4 = decide (s.tx.head ≠ s.tx.tail) ∧
    v.getLsbD 5 = s.tx.irqEn ∧ v.getLsbD 6 = s.tdrFull ∧ v.getLsbD 7 = s.tx.blocked ∧
    v.extractLsb' 8 2 =
      (match s.pe.state with | .idle => 0#2 | .waitDelay => 1#2 | .pulsing => 2#2) ∧
    v.extractLsb' 10 2 =
      (match s.db.state with | .idle => 0#2 | .armed => 1#2 | .counting => 2#2) ∧
    v.getLsbD 12 = s.pt.run ∧ v.getLsbD 13 = s.st.en ∧ v.getLsbD 14 = s.pwm.en ∧
    v.getLsbD 15 = decide (s.dl.cnt ≠ 0) ∧ v.getLsbD 16 = s.configured ∧ v.getLsbD 17 = s.ac.delayed ∧
    v.getLsbD 18 = s.tx.ovf ∧ v.getLsbD 19 = s.sp.enabled ∧ v.getLsbD 20 = s.sp.ccw ∧
    ∀ k, 21 ≤ k → v.getLsbD k = false

/-- 10_state.md R59, R60, R61: PIN_OUT reads every output pin, logical value exclusive-or invert bit, applied once;
PIN_IN reads the raw levels, an undriven pin at its pull direction; bits of no pin read 0. -/
def Obligations.PinMirrorsReadPins : Prop :=
  ∀ (s : State) (w : Word), s.par.nAxes ≤ 8 → WidthInv s →
    (∃ v : Word,
      exec (.rd 0xB0 w) s = .next { s with rdata := v } ∧
      (∀ i, i < s.par.nAxes → v.getLsbD i = (s.pe.stepL.getLsbD i ^^ s.ac.stepInv.getLsbD i)) ∧
      (∀ i, i < s.par.nAxes → v.getLsbD (8 + i) = (s.pe.dirL.getLsbD i ^^ s.ac.dirInv.getLsbD i)) ∧
      (∀ i, s.par.nAxes ≤ i → i < 8 → v.getLsbD i = false ∧ v.getLsbD (8 + i) = false) ∧
      v.getLsbD 16 = (s.sp.enabled ^^ s.ac.spnInv.getLsbD 0) ∧
      v.getLsbD 17 = (s.sp.ccw ^^ s.ac.spnInv.getLsbD 1) ∧
      v.getLsbD 18 = s.ac.spnInv.getLsbD 2 ∧
      v.getLsbD 19 = (s.cl.flood ^^ s.ac.coolInv.getLsbD 0) ∧
      v.getLsbD 20 = (s.cl.mist ^^ s.ac.coolInv.getLsbD 1) ∧
      ∀ k, 21 ≤ k → v.getLsbD k = false) ∧
    (∃ v : Word,
      exec (.rd 0xB4 w) s = .next { s with rdata := v } ∧
      (∀ i d, s.limDrv[i]? = some d →
        v.getLsbD i = (match d with | .low => false | .high => true | .float => s.ac.limPull.getLsbD i)) ∧
      (∀ i d, s.ctlDrv[i]? = some d →
        v.getLsbD (8 + i) = (match d with | .low => false | .high => true | .float => s.ac.ctlPull.getLsbD i)) ∧
      v.getLsbD 12 = (match s.prbDrv with | .low => false | .high => true | .float => s.ac.prbPull) ∧
      (∀ i, s.par.nAxes ≤ i → i < 8 → v.getLsbD i = false) ∧
      ∀ k, 13 ≤ k → v.getLsbD k = false)

/-- The RW registers and the bits each names (10_state.md R47, R51, R53 to R58). -/
def Sys2Proof.writeTable (p : Params) : List (Byte × Word) :=
  [ (0x04, 0xFFFFFFFF), (0x18, 0xF), (0x28, 0xFFFF) ] ++
  [ (0x40, p.axisMask.setWidth 32), (0x44, p.axisMask.setWidth 32), (0x48, p.axisMask.setWidth 32),
    (0x4C, p.axisMask.setWidth 32), (0x50, 0xF), (0x54, 0xF), (0x58, 0x3), (0x5C, 0x7), (0x60, 0x3),
    (0x64, 0xFFFF), (0x68, 0xFFFF), (0x6C, 0xFFFFFFFF), (0x70, 0x7F), (0x74, 0x7F), (0x78, 0xFFFFFFFF),
    (0x7C, 0xFFFFFFFF), (0x80, 0x37) ]

/-- 20_memory.md R85, R87, 10_state.md R47, R51, R53 to R58: a write to an RW register stores the named bits, which a
read then returns; every other RW register reads as before, and nothing else of the state changes. -/
def Obligations.WritesStoreNamedBits : Prop :=
  ∀ (s : State) (v w : Word), ∀ p ∈ writeTable s.par, ∃ t,
    exec (.wr p.1 v) s = .next t ∧
    exec (.rd p.1 w) t = .next { t with rdata := v &&& p.2 } ∧
    (∀ q ∈ writeTable s.par, q.1 ≠ p.1 →
      ∃ x, exec (.rd q.1 w) s = .next { s with rdata := x } ∧
        exec (.rd q.1 w) t = .next { t with rdata := x }) ∧
    { t with arg0 := s.arg0, ier := s.ier, spnPwmCmd := s.spnPwmCmd, cfg := s.cfg } = s

/-- 10_state.md R50, R51, 60_exceptions.md R308: a write of 1 to a bit of ERR or of IPR clears it, a write of 0 leaves
it, and nothing else changes; the interrupt output is high exactly while an enabled pending bit is left. -/
def Obligations.WriteOneClearsErrAndIpr : Prop :=
  ∀ (s : State) (v : Word),
    (∃ e : BitVec 10, exec (.wr 0x14 v) s = .next { s with err := e } ∧
      ∀ k, k < 10 → e.getLsbD k = (s.err.getLsbD k && !v.getLsbD k)) ∧
    (∃ p : BitVec 4, exec (.wr 0x1C v) s = .next { s with ipr := p } ∧
      (∀ k, k < 4 → p.getLsbD k = (s.ipr.getLsbD k && !v.getLsbD k)) ∧
      (irq { s with ipr := p } = true ↔
        ∃ k, k < 4 ∧ s.ipr.getLsbD k = true ∧ s.ier.getLsbD k = true ∧ v.getLsbD k = false))

/-! ## SER -/

/-- 40_serial.md R141: RXFREE returns the capacity minus the bytes held and changes nothing else; an empty buffer
gives RX_CAP, a full one 1, and 0 is never returned. -/
def Obligations.RxFreeCountsFreeSlots : Prop :=
  encode .rxfree = .word 0x01000000 ∧
  ∀ s : State, s.par.valid = true → BufferInv s → s.tx.blocked = false → ∃ n : Word,
    exec .rxfree s = .next { s with result := n } ∧
    n.toNat = s.par.rxCap - (rxUnread s).length ∧ n ≠ 0 ∧
    (s.rx.head = s.rx.tail → n.toNat = s.par.rxCap) ∧
    ((s.rx.head + 1) % s.par.rxCap = s.rx.tail → n.toNat = 1)

/-- 40_serial.md R142 and R153: RXFLUSH resets the two indices and touches nothing else; RXOVFCLR returns the
overflow flag and clears it. -/
def Obligations.FlushAndOverflowClear : Prop :=
  encode .rxflush = .word 0x02000000 ∧ encode .rxovfclr = .word 0x07000000 ∧
  ∀ s : State, s.tx.blocked = false →
    exec .rxflush s = .next { s with rx := { s.rx with head := 0, tail := 0 } } ∧
    exec .rxovfclr s =
      .next { s with result := (if s.rx.ovf then 1 else 0), rx := { s.rx with ovf := false } }

/-- 40_serial.md R143: RXCANCEL is refused while a backup is held; else the buffer holds exactly CAN_BYTE, written
at the old head, and nothing but the receive buffer's data and indices changes. -/
def Obligations.RxCancelLeavesCanByte : Prop :=
  encode .rxcancel = .word 0x03000000 ∧
  ∀ s : State, s.par.valid = true → BufferInv s → s.tx.blocked = false →
    (s.rx.bkActive = true → exec .rxcancel s = .next { s with err := s.err ||| 0x040 }) ∧
    (s.rx.bkActive = false → ∃ t, exec .rxcancel s = .next t ∧
      rxUnread t = [s.par.canByte] ∧
      (∀ j, t.rx.data.read j = if j = s.rx.head then s.par.canByte else s.rx.data.read j) ∧
      { t with rx := { t.rx with data := s.rx.data } } =
        { s with rx := { s.rx with tail := s.rx.head, head := (s.rx.head + 1) % s.par.rxCap } })

/-- 40_serial.md R148: GETBYTE returns NONE when suspended or empty and changes nothing else; else it returns the
oldest unread byte and advances tail. -/
def Obligations.GetByteTakesOldest : Prop :=
  encode .getbyte = .word 0x05000000 ∧
  ∀ s : State, BufferInv s → s.tx.blocked = false →
    (s.rx.suspended = true ∨ s.rx.head = s.rx.tail →
      exec .getbyte s = .next { s with result := 0xFFFFFFFF }) ∧
    (s.rx.suspended = false → s.rx.head ≠ s.rx.tail → ∃ t, exec .getbyte s = .next t ∧
      (∃ b, rxUnread s = b :: rxUnread t ∧ t.result = b.setWidth 32) ∧
      t = { s with result := (s.rx.data.read s.rx.tail).setWidth 32,
                   rx := { s.rx with tail := (s.rx.tail + 1) % s.par.rxCap } })

/-- 40_serial.md R149: SUSPEND 1 suspends; SUSPEND 0 ends the suspension and, with a backup active, restores the whole
buffer from the snapshot and ends the backup; both return whether a byte is pending after that. -/
def Obligations.SuspendAndRestore : Prop :=
  (∀ f : Bool, encode (.suspend f) = .word (if f then 0x06000001 else 0x06000000)) ∧
  ∀ s : State, s.tx.blocked = false →
    exec (.suspend true) s =
      .next { s with rx := { s.rx with suspended := true },
                     result := if s.rx.head ≠ s.rx.tail then 1 else 0 } ∧
    (s.rx.bkActive = false → exec (.suspend false) s =
      .next { s with rx := { s.rx with suspended := false },
                     result := if s.rx.head ≠ s.rx.tail then 1 else 0 }) ∧
    (s.rx.bkActive = true → exec (.suspend false) s =
      .next { s with rx := { s.rx with data := s.bk.data, head := s.bk.head, tail := s.bk.tail,
                                       suspended := false, bkActive := false },
                     result := if s.bk.head ≠ s.bk.tail then 1 else 0 })

/-- 40_serial.md R150: the receive handler's four outcomes, in the order of its tests. -/
def Obligations.ReceiveHandlerOrder : Prop :=
  (∀ (handled : Bool) (b : Byte), encode (.rxArrive handled b) =
    .word (BitVec.ofNat 32 (0x80000000 + (if handled then 256 else 0) + b.toNat))) ∧
  ∀ (s : State) (handled : Bool) (b : Byte), BufferInv s →
    ((s.rx.head + 1) % s.par.rxCap = s.rx.tail →
      exec (.rxArrive handled b) s = .next { s with rx := { s.rx with ovf := true } }) ∧
    ((s.rx.head + 1) % s.par.rxCap ≠ s.rx.tail → b = s.par.toolackByte → s.rx.bkActive = false →
      exec (.rxArrive handled b) s =
        .next { s with bk := { data := s.rx.data, head := s.rx.head, tail := s.rx.tail },
                       rx := { s.rx with bkActive := true, tail := s.rx.head, suspended := false } }) ∧
    ((s.rx.head + 1) % s.par.rxCap ≠ s.rx.tail → (b ≠ s.par.toolackByte ∨ s.rx.bkActive = true) →
      handled = true →
      exec (.rxArrive handled b) s = .next { s with cbTrace := s.cbTrace ++ [.rt b true] }) ∧
    ((s.rx.head + 1) % s.par.rxCap ≠ s.rx.tail → (b ≠ s.par.toolackByte ∨ s.rx.bkActive = true) →
      handled = false → ∃ t, exec (.rxArrive handled b) s = .next t ∧
        rxUnread t = rxUnread s ++ [b] ∧
        (∀ j, t.rx.data.read j = if j = s.rx.head then b else s.rx.data.read j) ∧
        { t with rx := { t.rx with data := s.rx.data } } =
          { s with rx := { s.rx with head := (s.rx.head + 1) % s.par.rxCap },
                   cbTrace := s.cbTrace ++ [.rt b false] })

/-- 40_serial.md R144, R145: PUTBYTE sends direct, blocks on a full buffer, or enqueues. -/
def Obligations.PutByteThreeWays : Prop :=
  (∀ c : Byte, encode (.putbyte c) = .word (BitVec.ofNat 32 (0x04000000 + c.toNat))) ∧
  ∀ (s : State) (c : Byte), BufferInv s → s.tx.blocked = false →
    (s.tx.head = s.tx.tail → s.tdrFull = false →
      exec (.putbyte c) s = .next { s with tdr := c, tdrFull := true, result := 1 }) ∧
    (¬ (s.tx.head = s.tx.tail ∧ s.tdrFull = false) → (s.tx.head + 1) % s.par.txCap = s.tx.tail →
      exec (.putbyte c) s = .next { s with tx := { s.tx with pend := c, blocked := true }, result := 2 }) ∧
    (¬ (s.tx.head = s.tx.tail ∧ s.tdrFull = false) → (s.tx.head + 1) % s.par.txCap ≠ s.tx.tail →
      ∃ t, exec (.putbyte c) s = .next t ∧
        txBuffered t = txBuffered s ++ [c] ∧
        (∀ j, t.tx.data.read j = if j = s.tx.head then c else s.tx.data.read j) ∧
        { t with tx := { t.tx with data := s.tx.data } } =
          { s with tx := { s.tx with head := (s.tx.head + 1) % s.par.txCap, irqEn := true }, result := 1 })

/-- 40_serial.md R146: one turn of the wait loop; only a full buffer asks the callback, and only its "do not block"
gives up, leaving the buffer as it was. -/
def Obligations.PutRetryTurn : Prop :=
  (∀ cont : Bool, encode (.putRetry cont) = .word (if cont then 0x83000001 else 0x83000000)) ∧
  ∀ (s : State) (cont : Bool), BufferInv s →
    ((∃ t, exec (.putRetry cont) s = .next t) ↔ s.tx.blocked = true) ∧
    (s.tx.blocked = true → (s.tx.head + 1) % s.par.txCap ≠ s.tx.tail →
      ∃ t, exec (.putRetry cont) s = .next t ∧
        txBuffered t = txBuffered s ++ [s.tx.pend] ∧
        (∀ j, t.tx.data.read j = if j = s.tx.head then s.tx.pend else s.tx.data.read j) ∧
        { t with tx := { t.tx with data := s.tx.data } } =
          { s with tx := { s.tx with head := (s.tx.head + 1) % s.par.txCap, irqEn := true, blocked := false },
                   result := 1 }) ∧
    (s.tx.blocked = true → (s.tx.head + 1) % s.par.txCap = s.tx.tail → cont = true →
      exec (.putRetry cont) s = .next { s with cbTrace := s.cbTrace ++ [.block true] }) ∧
    (s.tx.blocked = true → (s.tx.head + 1) % s.par.txCap = s.tx.tail → cont = false →
      exec (.putRetry cont) s =
        .next { s with cbTrace := s.cbTrace ++ [.block false], tx := { s.tx with blocked := false },
                       result := 0, err := s.err ||| 0x200 })

/-- 40_serial.md R151, R152: the transmit handler moves the oldest buffered byte to `tdr` and turns itself off on the
last one; the line takes `tdr`; each steps exactly when it is enabled. -/
def Obligations.TransmitHandlerAndLine : Prop :=
  encode .txIrq = .word 0x82000000 ∧ encode .lineTake = .word 0x81000000 ∧
  ∀ s : State, BufferInv s →
    (s.tx.irqEn = true → s.tdrFull = false → s.tx.head ≠ s.tx.tail → ∃ t, exec .txIrq s = .next t ∧
      txBuffered s = t.tdr :: txBuffered t ∧
      t = { s with tdr := s.tx.data.read s.tx.tail, tdrFull := true,
                   tx := { s.tx with tail := (s.tx.tail + 1) % s.par.txCap,
                                     irqEn := decide ((s.tx.tail + 1) % s.par.txCap ≠ s.tx.head) } }) ∧
    (s.tx.irqEn = true → s.tdrFull = false → s.tx.head = s.tx.tail →
      exec .txIrq s = .next { s with err := s.err ||| 0x100, tx := { s.tx with irqEn := false } }) ∧
    ((∃ t, exec .txIrq s = .next t) ↔ s.tx.irqEn = true ∧ s.tdrFull = false) ∧
    (s.tdrFull = true → exec .lineTake s = .next { s with txLine := s.txLine ++ [s.tdr], tdrFull := false }) ∧
    ((∃ t, exec .lineTake s = .next t) ↔ s.tdrFull = true)

/-- 40_serial.md R155: the line, then `tdr`, then the buffer, grows by exactly the bytes a step delivers, in order:
nothing is lost, doubled or reordered, whatever the step. -/
def Obligations.TransmitStreamConserved : Prop :=
  ∀ (i : Instr) (s t : State), BufferInv s → exec i s = .next t →
    outStream t = outStream s ++ delivered i s

/-- 40_serial.md R156: absent RXFLUSH, RXCANCEL, SUSPEND and TOOLACK_BYTE, the unread bytes change at the two ends
only: an arrival that finds space and is not claimed is added at the end, and what GETBYTE returns is taken from the
front. -/
def Obligations.ReceiveStreamConserved : Prop :=
  ∀ (i : Instr) (s t : State), BufferInv s → exec i s = .next t →
    issued i ≠ .rxflush → issued i ≠ .rxcancel → (∀ f, issued i ≠ .suspend f) →
    (∀ h, i ≠ .rxArrive h s.par.toolackByte) →
    ∃ taken, taken ++ rxUnread t =
        rxUnread s ++
          (match i with
            | .rxArrive false b => if (s.rx.head + 1) % s.par.rxCap = s.rx.tail then [] else [b]
            | _ => []) ∧
      (taken = [] ∨ ∃ b, taken = [b] ∧ issued i = .getbyte ∧ s.tx.blocked = false ∧
        s.rx.suspended = false ∧ t.result = b.setWidth 32)

/-- 40_serial.md R157: after a tool-acknowledge byte, whatever arrives and is not read, SUSPEND 0 brings the unread
bytes of before back and drops the later ones. -/
def Obligations.BackupProtocolRestores : Prop :=
  ∀ (s : State) (h : Bool) (later : List (Bool × Byte)),
    BufferInv s → s.tx.blocked = false → s.rx.bkActive = false →
    (s.rx.head + 1) % s.par.rxCap ≠ s.rx.tail →
    ∃ t, runInstrs (Instr.rxArrive h s.par.toolackByte :: later.map (fun x => Instr.rxArrive x.1 x.2)
        ++ [Instr.suspend false]) s = .next t ∧
      rxUnread t = rxUnread s ∧ t.rx.bkActive = false ∧ t.rx.suspended = false ∧
      t.result = (if s.rx.head ≠ s.rx.tail then 1 else 0)

/-- 20_memory.md R92: which steps write each ring index. -/
def Obligations.RingIndexWriters : Prop :=
  ∀ (i : Instr) (s t : State), exec i s = .next t →
    (t.rx.head ≠ s.rx.head →
      (∃ h b, i = .rxArrive h b) ∨ issued i = .rxflush ∨ issued i = .rxcancel ∨ issued i = .suspend false) ∧
    (t.rx.tail ≠ s.rx.tail →
      issued i = .getbyte ∨ (∃ h, i = .rxArrive h s.par.toolackByte) ∨ issued i = .rxflush ∨
        issued i = .rxcancel ∨ issued i = .suspend false) ∧
    (t.tx.head ≠ s.tx.head → (∃ c, issued i = .putbyte c) ∨ ∃ c, i = .putRetry c) ∧
    (t.tx.tail ≠ s.tx.tail → i = .txIrq)

/-- 40_serial.md R147: WRITESTRING puts each byte before the first 0x00, WRITEBYTES `len` bytes of which those of
the text are the text's, in order. One PutAndWait is a PUTBYTE and then reads of RESULT until one is not 2; it always
goes on. Whatever the other agents do between, no PUTBYTE is issued while one waits, so none is refused as BUSY; the
bytes put appear in the transmitted stream in order, exactly as many missing as CB_BLOCK(0), the answer that aborts a
PUTBYTE, is delivered during the run, and none missing where ERR.TX_ABORT is clear at its end. That WRITEBYTES puts `len` bytes where the text is shorter is the model's choice, and so is
that the turns are a list (assumptions 26, 24). -/
def Obligations.StringsExpandToPutBytes : Prop :=
  (∀ (text : List Byte) (len : Nat) (past : Nat → Byte),
    writeString text = { todo := text.takeWhile (fun b => b ≠ 0x00), waiting := false } ∧
    (writeBytes text len past).waiting = false ∧ (writeBytes text len past).todo.length = len ∧
    ∀ i, i < len → i < text.length → (writeBytes text len past).todo[i]? = text[i]?) ∧
  (∀ (todo : List Byte) (s : State),
    putAndWait { todo := todo, waiting := true } s =
      .next ({ todo := todo, waiting := decide (s.result = 2) }, { s with rdata := s.result }) ∧
    putAndWait { todo := [], waiting := false } s = .next ({ todo := [], waiting := false }, s) ∧
    ∀ b, ∃ t, exec (.putbyte b) s = .next t ∧
      putAndWait { todo := b :: todo, waiting := false } s = .next ({ todo := todo, waiting := true }, t)) ∧
  ∀ (turns : List Turn) (bytes : List Byte) (s : State) (r : PutRun) (t : State),
    BufferInv s → s.tx.blocked = false → (∀ i, Turn.other i ∈ turns → isHostStep i = false) →
    runTurns turns { todo := bytes, waiting := false } s = .next (r, t) →
    (r.waiting = false → t.tx.blocked = false) ∧
    t.err.getLsbD 1 = s.err.getLsbD 1 ∧
    (∃ kept, kept.Sublist bytes ∧ outStream t ++ parked t ++ r.todo = outStream s ++ kept ∧
      kept.length + t.cbTrace.count (.block false) = bytes.length + s.cbTrace.count (.block false)) ∧
    (t.err.getLsbD 9 = false → outStream t ++ parked t ++ r.todo = outStream s ++ bytes)

/-! ## SPE -/

/-- 41_stepper.md R184, R185: PULSE_START is refused while a pulse is in flight; else it writes the direction, runs
the lazy spindle refresh (the effect of SET_SPEED of the commanded value, only when that differs from the applied one
and speed is variable), and starts the pulse in the active mode. Nothing else changes. -/
def Obligations.PulseStartBeginsPulse : Prop :=
  (∀ dir step : Byte,
    encode (.pulseStart dir step) = .word (BitVec.ofNat 32 (0x10000000 + dir.toNat * 256 + step.toNat))) ∧
  ∀ (s : State) (dir step : Byte), s.tx.blocked = false →
    (s.configured = false → exec (.pulseStart dir step) s = .next { s with err := s.err ||| 0x004 }) ∧
    (s.configured = true → s.pe.state ≠ .idle →
      exec (.pulseStart dir step) s = .next { s with err := s.err ||| 0x020 }) ∧
    (s.configured = true → s.pe.state = .idle → ∃ u, u =
        (if s.ac.varSpeed = true ∧ s.spnPwmCmd ≠ s.sp.applied then exec (.setSpeed s.spnPwmCmd) s else .next s) ∧
      (s.ac.delayed = false → ∃ v, u = .next v ∧ exec (.pulseStart dir step) s =
        .next { v with pe := { s.pe with dirL := dir &&& s.par.axisMask, stepL := step &&& s.par.axisMask,
                                         state := .pulsing },
                       pt := { run := true, cnt := 0, cmp := s.ac.widthTicks } }) ∧
      (s.ac.delayed = true → ∃ v, u = .next v ∧ exec (.pulseStart dir step) s =
        .next { v with pe := { s.pe with dirL := dir &&& s.par.axisMask, stash := step &&& s.par.axisMask,
                                         state := .waitDelay },
                       pt := { run := true, cnt := 0, cmp := s.ac.delayTicks } }))

/-- 41_stepper.md R186: one tick of the pulse timer. -/
def Obligations.PulseTimerTick : Prop :=
  encode .ptTick = .word 0x84000000 ∧
  ∀ s : State,
    (s.pt.run = false → exec .ptTick s = .next s) ∧
    (s.pt.run = true → s.pt.cnt + 1 ≠ s.pt.cmp ∨ s.pe.state = .idle →
      exec .ptTick s = .next { s with pt := { s.pt with cnt := s.pt.cnt + 1 } }) ∧
    (s.pt.run = true → s.pt.cnt + 1 = s.pt.cmp → s.pe.state = .waitDelay →
      exec .ptTick s = .next { s with
        pe := { s.pe with stepL := s.pe.stash, state := .pulsing },
        pt := { s.pt with cnt := s.pt.cnt + 1, cmp := s.ac.delayTicks + s.ac.widthTicks } }) ∧
    (s.pt.run = true → s.pt.cnt + 1 = s.pt.cmp → s.pe.state = .pulsing →
      exec .ptTick s = .next { s with
        pe := { s.pe with stepL := 0, state := .idle },
        pt := { s.pt with cnt := s.pt.cnt + 1, run := false } })

/-- 41_stepper.md R188 to R191: STEP_WAKE, STEP_IDLE and STEP_CYCLES write the step cycle timer and nothing else; one
tick of it counts, and at the period it reloads and delivers CB_STEP. -/
def Obligations.StepTimerSteps : Prop :=
  encode .stepWake = .word 0x11000000 ∧ encode .stepIdle = .word 0x12000000 ∧
  encode .stepCycles = .word 0x13000000 ∧ encode .stTick = .word 0x89000000 ∧
  ∀ s : State,
    (s.tx.blocked = false →
      exec .stepWake s = .next { s with st := { s.st with en := true, cnt := 0 } } ∧
      exec .stepIdle s = .next { s with st := { s.st with en := false } } ∧
      exec .stepCycles s = .next { s with st := { s.st with period := s.arg0 } }) ∧
    (s.st.en = false → exec .stTick s = .next s) ∧
    (s.st.en = true → (s.st.cnt + 1).toNat < s.st.period.toNat →
      exec .stTick s = .next { s with st := { s.st with cnt := s.st.cnt + 1 } }) ∧
    (s.st.en = true → s.st.period.toNat ≤ (s.st.cnt + 1).toNat →
      exec .stTick s = .next { s with st := { s.st with cnt := 0 }, cbTrace := s.cbTrace ++ [.step],
                                      ipr := s.ipr ||| 0b0001 })

/-- 41_stepper.md R187, 70_reset_and_hazards.md R361: in immediate mode the step outputs are asserted by PULSE_START
and de-asserted in the `widthTicks`-th tick; in delayed mode they are asserted in the `delayTicks`-th tick and
de-asserted in the (`delayTicks` + `widthTicks`)-th, so exactly `widthTicks` ticks later. -/
def Obligations.PulseWidthIsExact : Prop :=
  ∀ (s : State) (dir step : Byte) (n : Nat), s.tx.blocked = false → s.configured = true → ConfigInv s →
    s.pe.state = .idle → s.pe.stepL = 0 →
    (s.ac.delayed = false → n ≤ s.ac.widthTicks.toNat →
      ∃ t, runInstrs (.pulseStart dir step :: List.replicate n .ptTick) s = .next t ∧
        (n < s.ac.widthTicks.toNat → t.pe.state = .pulsing ∧ t.pe.stepL = step &&& s.par.axisMask) ∧
        (n = s.ac.widthTicks.toNat → t.pe.state = .idle ∧ t.pe.stepL = 0) ∧
        t.pe.dirL = dir &&& s.par.axisMask) ∧
    (s.ac.delayed = true → n ≤ s.ac.delayTicks.toNat + s.ac.widthTicks.toNat →
      ∃ t, runInstrs (.pulseStart dir step :: List.replicate n .ptTick) s = .next t ∧
        (n < s.ac.delayTicks.toNat → t.pe.state = .waitDelay ∧ t.pe.stepL = 0) ∧
        (s.ac.delayTicks.toNat ≤ n → n < s.ac.delayTicks.toNat + s.ac.widthTicks.toNat →
          t.pe.state = .pulsing ∧ t.pe.stepL = step &&& s.par.axisMask) ∧
        (n = s.ac.delayTicks.toNat + s.ac.widthTicks.toNat → t.pe.state = .idle ∧ t.pe.stepL = 0) ∧
        t.pe.dirL = dir &&& s.par.axisMask)

/-- 41_stepper.md R192: the pulse state machine, complete: no step but those of the table changes `pe.state`. -/
def Obligations.PulseStateMachineComplete : Prop :=
  ∀ (i : Instr) (s t : State), exec i s = .next t → t.pe.state ≠ s.pe.state →
    (s.pe.state = .idle ∧ (∃ d p, issued i = .pulseStart d p) ∧
      t.pe.state = if s.ac.delayed then .waitDelay else .pulsing) ∨
    (s.pe.state = .waitDelay ∧ i = .ptTick ∧ s.pt.cnt + 1 = s.pt.cmp ∧ t.pe.state = .pulsing) ∨
    (s.pe.state = .pulsing ∧ i = .ptTick ∧ s.pt.cnt + 1 = s.pt.cmp ∧ t.pe.state = .idle)

/-! ## INP and DBC -/

/-- 42_inputs_debounce.md R211 to R214, 44_aux.md R276: the samplers return the logical state, raw level exclusive-or
invert bit; the control state is decoded by priority; nothing but RESULT changes. -/
def Obligations.SamplersReturnLogicalState : Prop :=
  encode .getLimits = .word 0x20000000 ∧ encode .getControl = .word 0x21000000 ∧
  encode .getProbe = .word 0x23000000 ∧
  ∀ s : State, s.par.nAxes ≤ 8 → WidthInv s → s.tx.blocked = false →
    (∃ v : Word, exec .getLimits s = .next { s with result := v } ∧
      (∀ i d, s.limDrv[i]? = some d → v.getLsbD i =
        ((match d with | .low => false | .high => true | .float => s.ac.limPull.getLsbD i)
          ^^ s.ac.limInv.getLsbD i)) ∧
      ∀ i, s.par.nAxes ≤ i → v.getLsbD i = false) ∧
    (∃ (v : Word) (l : BitVec 4), exec .getControl s = .next { s with result := v } ∧
      (∀ i d, s.ctlDrv[i]? = some d → l.getLsbD i =
        ((match d with | .low => false | .high => true | .float => s.ac.ctlPull.getLsbD i)
          ^^ s.ac.ctlInv.getLsbD i)) ∧
      v = if l.getLsbD 0 then 0b0001 else if l.getLsbD 3 then 0b1000 else if l.getLsbD 1 then 0b0010
          else if l.getLsbD 2 then 0b0100 else 0) ∧
    exec .getProbe s = .next { s with result :=
      if (match s.prbDrv with | .low => false | .high => true | .float => s.ac.prbPull) = s.ac.prbInv
      then 0 else 1 }

/-- 42_inputs_debounce.md R215, 44_aux.md R277: LIMITS_ENABLE moves the debounce machine only; @PRB_IN sets the probe
drive only. -/
def Obligations.LimitsEnableAndProbeIn : Prop :=
  (∀ f : Bool, encode (.limitsEnable f) = .word (if f then 0x22000001 else 0x22000000)) ∧
  (∀ f l : Bool, encode (.prbIn f l) =
    .word (BitVec.ofNat 32 (0x88000000 + (if f then 256 else 0) + if l then 1 else 0))) ∧
  ∀ s : State,
    (s.tx.blocked = false → s.db.state = .idle →
      exec (.limitsEnable true) s = .next { s with db := { s.db with state := .armed } }) ∧
    (s.tx.blocked = false → s.db.state ≠ .idle → exec (.limitsEnable true) s = .next s) ∧
    (s.tx.blocked = false →
      exec (.limitsEnable false) s = .next { s with db := { state := .idle, cnt := 0 } }) ∧
    ∀ f l : Bool, exec (.prbIn f l) s =
      .next { s with prbDrv := if f then .float else if l then .high else .low }

/-- Pin i after a pin stimulus: Z if its float bit is 1, else its level bit (30_encoding.md R117). -/
def Sys2Proof.drivenBy {w : Nat} (n : Nat) (float level : BitVec w) (drives : List Drive) : Prop :=
  drives.length = n ∧ ∀ i, i < n →
    drives[i]? = some (if float.getLsbD i then .float else if level.getLsbD i then .high else .low)

/-- 42_inputs_debounce.md R216 to R218: @LIM_IN sets the drives; a bit of the logical state going from 0 to 1 while
the machine is not IDLE opens or restarts the settle window, or, with debounce off, delivers CB_LIMIT of the new state
at once; any other @LIM_IN only sets the drives. -/
def Obligations.LimitInputEdges : Prop :=
  (∀ f l : Byte, encode (.limIn f l) = .word (BitVec.ofNat 32 (0x86000000 + f.toNat * 256 + l.toNat))) ∧
  ∀ (s : State) (f l : Byte), ∃ u : State, drivenBy s.par.nAxes f l u.limDrv ∧
    { u with limDrv := s.limDrv } = s ∧
    ((∃ k, k < 8 ∧ (limLogical s).getLsbD k = false ∧ (limLogical u).getLsbD k = true) →
      s.db.state ≠ .idle → s.ac.swDebounce = true →
      exec (.limIn f l) s = .next { u with db := { state := .counting, cnt := s.par.debounceTicks } }) ∧
    ((∃ k, k < 8 ∧ (limLogical s).getLsbD k = false ∧ (limLogical u).getLsbD k = true) →
      s.db.state ≠ .idle → s.ac.swDebounce = false →
      exec (.limIn f l) s = .next { u with cbTrace := u.cbTrace ++ [.limit (limLogical u)],
                                           ipr := u.ipr ||| 0b0010, limitEvt := limLogical u }) ∧
    ((∀ k, k < 8 → (limLogical s).getLsbD k = true ∨ (limLogical u).getLsbD k = false) ∨
      s.db.state = .idle → exec (.limIn f l) s = .next u)

/-- 42_inputs_debounce.md R222: @CTL_IN sets the drives; a logical control bit going from 0 to 1 delivers CB_CONTROL
of the decoded state in the same step; else only the drives change. -/
def Obligations.ControlInputEdges : Prop :=
  (∀ f l : BitVec 4, encode (.ctlIn f l) = .word (BitVec.ofNat 32 (0x87000000 + f.toNat * 256 + l.toNat))) ∧
  ∀ (s : State) (f l : BitVec 4), ∃ u : State, drivenBy 4 f l u.ctlDrv ∧ { u with ctlDrv := s.ctlDrv } = s ∧
    ((∃ k, k < 4 ∧ (ctlLogical s).getLsbD k = false ∧ (ctlLogical u).getLsbD k = true) →
      exec (.ctlIn f l) s =
        .next { u with cbTrace := u.cbTrace ++ [.control (ctlDecode (ctlLogical u))],
                       ipr := u.ipr ||| 0b0100, controlEvt := ctlDecode (ctlLogical u) }) ∧
    ((∀ k, k < 4 → (ctlLogical s).getLsbD k = true ∨ (ctlLogical u).getLsbD k = false) →
      exec (.ctlIn f l) s = .next u)

/-- 42_inputs_debounce.md R219: one tick of the debounce timer; at zero the state as it is now is delivered. -/
def Obligations.DebounceTick : Prop :=
  encode .dbTick = .word 0x85000000 ∧
  ∀ s : State,
    (s.db.state ≠ .counting → exec .dbTick s = .next s) ∧
    (s.db.state = .counting → s.db.cnt ≠ 1 →
      exec .dbTick s = .next { s with db := { s.db with cnt := s.db.cnt - 1 } }) ∧
    (s.db.state = .counting → s.db.cnt = 1 →
      exec .dbTick s = .next { s with db := { state := .armed, cnt := 0 },
                                      cbTrace := s.cbTrace ++ [.limit (limLogical s)],
                                      ipr := s.ipr ||| 0b0010, limitEvt := limLogical s })

/-- 42_inputs_debounce.md R220: the debounce state machine, complete: no step but those of the table changes
`db.state`, and each only under the table's condition; a settle window opens by a qualifying edge (R217) alone. -/
def Obligations.DebounceStateMachineComplete : Prop :=
  ∀ (i : Instr) (s t : State), exec i s = .next t → t.db.state ≠ s.db.state →
    (s.db.state = .idle ∧ issued i = .limitsEnable true ∧ t.db.state = .armed) ∨
    (s.db.state = .armed ∧ (∃ f l, i = .limIn f l) ∧ s.ac.swDebounce = true ∧ t.db.state = .counting ∧
      ∃ k, k < s.par.nAxes ∧ (limLogical s).getLsbD k = false ∧ (limLogical t).getLsbD k = true) ∨
    (s.db.state = .counting ∧ i = .dbTick ∧ s.db.cnt = 1 ∧ t.db.state = .armed) ∨
    (s.db.state ≠ .idle ∧ issued i = .limitsEnable false ∧ t.db.state = .idle)

/-! ## SPN -/

/-- 43_spindle.md R248, R249: COMPUTE_PWM returns duty and effective rpm by the three policies in order, records the
effective rpm, and changes no output. That the clamp of policy 3 does not act where `pw.min` < `pw.max` is stated; that
it does where the two are equal follows from R248's pseudocode, against its remark that the clamp never fires: this
clause is the writer's inference. -/
def Obligations.ComputePwmPolicies : Prop :=
  (∀ ovr : Byte, encode (.computePwm ovr) = .word (BitVec.ofNat 32 (0x30000000 + ovr.toNat))) ∧
  ∀ (s : State) (ovr : Byte), s.tx.blocked = false → ConfigInv s →
    (s.configured = false → exec (.computePwm ovr) s = .next { s with err := s.err ||| 0x004 }) ∧
    (s.configured = true → ∃ duty eff : Nat, exec (.computePwm ovr) s =
        .next { s with result := BitVec.ofNat 32 duty, result1 := BitVec.ofNat 32 eff,
                       sp := { s.sp with effRpm := BitVec.ofNat 32 eff } } ∧
      duty < 2 ^ 16 ∧ eff < 2 ^ 32 ∧
      (s.ac.rpmMax.toNat ≤ s.ac.rpmMin.toNat ∨ 100 * s.ac.rpmMax.toNat ≤ s.arg0.toNat * ovr.toNat →
        duty = s.pw.maxValue.toNat - 1 ∧ eff = s.ac.rpmMax.toNat) ∧
      (s.ac.rpmMin.toNat < s.ac.rpmMax.toNat → s.arg0.toNat * ovr.toNat < 100 * s.ac.rpmMax.toNat →
        s.arg0.toNat * ovr.toNat ≤ 100 * s.ac.rpmMin.toNat →
        (s.arg0.toNat * ovr.toNat = 0 → duty = 0 ∧ eff = 0) ∧
        (s.arg0.toNat * ovr.toNat ≠ 0 → duty = s.pw.minValue.toNat ∧ eff = s.ac.rpmMin.toNat)) ∧
      (s.ac.rpmMin.toNat < s.ac.rpmMax.toNat → s.arg0.toNat * ovr.toNat < 100 * s.ac.rpmMax.toNat →
        100 * s.ac.rpmMin.toNat < s.arg0.toNat * ovr.toNat →
        (∀ d, d = ((s.arg0.toNat * ovr.toNat - 100 * s.ac.rpmMin.toNat) *
              (s.pw.maxValue.toNat - s.pw.minValue.toNat)) /
            (100 * (s.ac.rpmMax.toNat - s.ac.rpmMin.toNat)) + s.pw.minValue.toNat →
          duty = (if s.pw.maxValue.toNat ≤ d then s.pw.maxValue.toNat - 1 else d) ∧
          (s.pw.minValue.toNat < s.pw.maxValue.toNat → d < s.pw.maxValue.toNat)) ∧
        eff = s.arg0.toNat * ovr.toNat / 100))

/-- 43_spindle.md R254: with a usable range, rpm 0 gives off, `rpmMax` gives full on, and between them the duty does
not decrease with rpm, is at most `pw.max` - 1, and at least `pw.min` where `pw.min` < `pw.max` (where the two are
equal, the clamp of R248 gives `pw.max` - 1, one below `pw.min`). -/
def Obligations.PwmMappingMonotone : Prop :=
  ∀ s : State, s.configured = true → ConfigInv s → s.ac.rpmMin.toNat < s.ac.rpmMax.toNat →
    computePwm s 0 100 = (s.pw.offValue, 0) ∧
    ((computePwm s s.ac.rpmMax 100).1.toNat = s.pw.maxValue.toNat - 1 ∧
      (computePwm s s.ac.rpmMax 100).2 = s.ac.rpmMax) ∧
    ∀ a b : Word, s.ac.rpmMin.toNat < a.toNat → a.toNat ≤ b.toNat → b.toNat < s.ac.rpmMax.toNat →
      (s.pw.minValue.toNat < s.pw.maxValue.toNat →
        s.pw.minValue.toNat ≤ (computePwm s a 100).1.toNat) ∧
      (computePwm s a 100).1.toNat ≤ (computePwm s b 100).1.toNat ∧
      (computePwm s b 100).1.toNat ≤ s.pw.maxValue.toNat - 1

/-- 43_spindle.md R250: SET_SPEED of the off-sentinel disables the PWM, keeps the duty, and turns the spindle off only
if so configured; any other duty enables both and is programmed; both record the duty. -/
def Obligations.SetSpeedProgramsPwm : Prop :=
  (∀ duty : BitVec 16, encode (.setSpeed duty) = .word (BitVec.ofNat 32 (0x31000000 + duty.toNat))) ∧
  ∀ (s : State) (duty : BitVec 16), s.tx.blocked = false →
    (s.configured = false → exec (.setSpeed duty) s = .next { s with err := s.err ||| 0x004 }) ∧
    (s.configured = true → duty = s.pw.offValue → exec (.setSpeed duty) s =
      .next { s with pwm := { s.pwm with en := false },
                     sp := { s.sp with enabled := s.sp.enabled && !s.ac.offOnZero, applied := duty },
                     spnPwmCmd := duty }) ∧
    (s.configured = true → duty ≠ s.pw.offValue → exec (.setSpeed duty) s =
      .next { s with pwm := { en := true, duty := duty },
                     sp := { s.sp with enabled := true, applied := duty },
                     spnPwmCmd := duty })

/-- 43_spindle.md R252: SET_STATE in variable-speed and in on/off-only mode. The speed part is the effect of SET_SPEED
of the computed duty (R250). -/
def Obligations.SetStateComposes : Prop :=
  (∀ (ccw enable : Bool) (ovr : Byte), encode (.setState ccw enable ovr) =
    .word (BitVec.ofNat 32 (0x32000000 + (if ccw then 512 else 0) + (if enable then 256 else 0) + ovr.toNat))) ∧
  ∀ (s : State) (ccw : Bool) (ovr : Byte), s.tx.blocked = false →
    (s.configured = false → ∀ enable : Bool,
      exec (.setState ccw enable ovr) s = .next { s with err := s.err ||| 0x004 }) ∧
    (s.configured = true → s.ac.varSpeed = true →
      exec (.setState ccw false ovr) s =
        .next { s with pwm := { s.pwm with en := false },
                       sp := { s.sp with enabled := false, applied := s.pw.offValue, effRpm := 0 },
                       spnPwmCmd := s.pw.offValue, result := s.pw.offValue.setWidth 32, result1 := 0 } ∧
      ∃ u v, exec (.computePwm ovr) s = .next u ∧
        exec (.setSpeed (u.result.setWidth 16)) { u with sp := { u.sp with ccw := ccw } } = .next v ∧
        exec (.setState ccw true ovr) s = .next v) ∧
    (s.configured = true → s.ac.varSpeed = false →
      exec (.setState ccw false ovr) s =
        .next { s with sp := { s.sp with enabled := false }, result := 0, result1 := 0 } ∧
      exec (.setState ccw true ovr) s =
        .next { s with sp := { s.sp with enabled := true, ccw := ccw }, result := 0, result1 := 0 })

/-- 10_state.md R62: the PWM is low when disabled, follows the duty within the period when enabled, and is constantly
asserted for a duty at or above the period. The counter's value is an argument (assumption 17). -/
def Obligations.PwmWaveform : Prop :=
  ∀ (s : State) (count : Nat), count < s.pw.period.toNat →
    (s.pwm.en = false → pwmPin s count = s.ac.spnInv.getLsbD 2) ∧
    (s.pwm.en = true → s.pw.period.toNat ≤ s.pwm.duty.toNat →
      pwmPin s count = !s.ac.spnInv.getLsbD 2) ∧
    (s.pwm.en = true → s.pwm.duty.toNat < s.pw.period.toNat →
      pwmPin s count = (decide (count < s.pwm.duty.toNat) ^^ s.ac.spnInv.getLsbD 2))

/-! ## Auxiliary -/

/-- 44_aux.md R270, R271, R273: CFG_APPLY is refused as CFG_BUSY during a pulse, then as CFG_INVALID if a test fails;
else it writes `ac.*`, `pw.*`, `configured` and RESULT, all in one step, and nothing else. -/
def Obligations.ConfigurationApplies : Prop :=
  encode .cfgApply = .word 0x40000000 ∧
  ∀ s : State, s.par.valid = true → s.tx.blocked = false →
    (s.pe.state ≠ .idle → exec .cfgApply s = .next { s with err := s.err ||| 0x010 }) ∧
    ∀ period max : Nat, period = s.par.fPwm / s.cfg.pwmFreq.toNat →
      max = min (period * s.cfg.pwmMaxPct.toNat / 100) (period - 1) →
      (s.pe.state = .idle →
        ¬ (1 ≤ s.cfg.pulseUs.toNat ∧ 1 ≤ s.cfg.pwmFreq.toNat ∧ 2 ≤ period ∧ period ≤ 65535 ∧
            s.cfg.pwmMinPct.toNat ≤ s.cfg.pwmMaxPct.toNat ∧ s.cfg.pwmMaxPct.toNat ≤ 100 ∧ 1 ≤ max) →
        exec .cfgApply s = .next { s with err := s.err ||| 0x008 }) ∧
      (s.pe.state = .idle → 1 ≤ s.cfg.pulseUs.toNat → 1 ≤ s.cfg.pwmFreq.toNat → 2 ≤ period →
        period ≤ 65535 → s.cfg.pwmMinPct.toNat ≤ s.cfg.pwmMaxPct.toNat → s.cfg.pwmMaxPct.toNat ≤ 100 →
        1 ≤ max →
        ∃ t, exec .cfgApply s = .next t ∧
          { t with ac := s.ac, pw := s.pw } = { s with configured := true, result := 1 } ∧
          (t.ac.stepInv = s.cfg.stepInv ∧ t.ac.dirInv = s.cfg.dirInv ∧ t.ac.limInv = s.cfg.limInv ∧
            t.ac.limPull = s.cfg.limPull ∧ t.ac.ctlInv = s.cfg.ctrlInv ∧ t.ac.ctlPull = s.cfg.ctrlPull ∧
            t.ac.prbInv = s.cfg.probe.getLsbD 0 ∧ t.ac.prbPull = s.cfg.probe.getLsbD 1 ∧
            t.ac.spnInv = s.cfg.spnInv ∧ t.ac.coolInv = s.cfg.coolInv) ∧
          (t.ac.widthTicks.toNat = s.cfg.pulseUs.toNat * s.par.ptTicksPerUs ∧
            t.ac.delayTicks.toNat = s.cfg.delayUs.toNat * s.par.ptTicksPerUs ∧
            (t.ac.delayed = true ↔ s.cfg.delayUs ≠ 0) ∧
            t.ac.rpmMin = s.cfg.rpmMin ∧ t.ac.rpmMax = s.cfg.rpmMax) ∧
          (t.ac.offOnZero = s.cfg.flags.getLsbD 0 ∧ t.ac.swDebounce = s.cfg.flags.getLsbD 1 ∧
            t.ac.varSpeed = s.cfg.flags.getLsbD 2 ∧ t.ac.amass = s.cfg.flags.extractLsb' 4 2) ∧
          (t.pw.period.toNat = period ∧ t.pw.offValue = 0 ∧ t.pw.maxValue.toNat = max ∧
            t.pw.minValue.toNat = min (period * s.cfg.pwmMinPct.toNat / 100) max ∧
            t.pw.gnum.toNat = t.pw.maxValue.toNat - t.pw.minValue.toNat ∧
            t.pw.gden.toNat = s.cfg.rpmMax.toNat - s.cfg.rpmMin.toNat))

/-- 20_memory.md R96, 10_state.md R41, R43, R44: only a CFG_APPLY changes the active configuration, the derived
spindle record or `configured`. -/
def Obligations.OnlyApplyChangesConfiguration : Prop :=
  ∀ (i : Instr) (s t : State), exec i s = .next t →
    t.ac ≠ s.ac ∨ t.pw ≠ s.pw ∨ t.configured ≠ s.configured → issued i = .cfgApply ∧ s.pe.state = .idle

/-- 44_aux.md R274, R275, R281, 43_spindle.md R253: COOLANT_SET, COOLANT_GET, SPN_GET_STATE and NOP. -/
def Obligations.CoolantSpindleStateAndNop : Prop :=
  (∀ mist flood : Bool, encode (.coolantSet mist flood) =
    .word (BitVec.ofNat 32 (0x41000000 + (if mist then 2 else 0) + if flood then 1 else 0))) ∧
  encode .coolantGet = .word 0x42000000 ∧ encode .spnGetState = .word 0x33000000 ∧
  encode .nop = .word 0x00000000 ∧
  (∀ s : State, s.tx.blocked = true → exec .nop s = .next { s with err := s.err ||| 0x002 }) ∧
  ∀ s : State, s.tx.blocked = false →
    (∀ mist flood : Bool, exec (.coolantSet mist flood) s =
      .next { s with cl := { flood := flood, mist := mist } }) ∧
    exec .coolantGet s = .next { s with result :=
      (if s.cl.mist then 2 else 0) + (if s.cl.flood then 1 else 0) } ∧
    exec .spnGetState s = .next { s with result :=
      (if s.pwm.en then 4 else 0) + (if s.sp.ccw then 2 else 0) + (if s.sp.enabled then 1 else 0) } ∧
    exec .nop s = .next s

/-- 44_aux.md R279, R280: DELAY_MS arms or replaces the one-shot timer, or delivers CB_DELAY at once; @MS_TICK counts
it down and delivers CB_DELAY at zero if asked to. -/
def Obligations.DelayTimerSteps : Prop :=
  encode .msTick = .word 0x8A000000 ∧
  (∀ (cb : Bool) (ms : BitVec 16), encode (.delayMs cb ms) =
    .word (BitVec.ofNat 32 (0x43000000 + (if cb then 65536 else 0) + ms.toNat))) ∧
  ∀ s : State,
    (∀ (cb : Bool) (ms : BitVec 16), s.tx.blocked = false →
      ((ms ≠ 0 ∨ cb = false) → exec (.delayMs cb ms) s = .next { s with dl := { cnt := ms, cb := cb } }) ∧
      (ms = 0 → cb = true → exec (.delayMs cb ms) s =
        .next { s with dl := { cnt := 0, cb := false }, cbTrace := s.cbTrace ++ [.delay],
                       ipr := s.ipr ||| 0b1000 })) ∧
    (s.dl.cnt = 0 → exec .msTick s = .next s) ∧
    (s.dl.cnt ≠ 0 → (s.dl.cnt ≠ 1 ∨ s.dl.cb = false) →
      exec .msTick s = .next { s with dl := { s.dl with cnt := s.dl.cnt - 1 } }) ∧
    (s.dl.cnt = 1 → s.dl.cb = true →
      exec .msTick s = .next { s with dl := { cnt := 0, cb := false }, cbTrace := s.cbTrace ++ [.delay],
                                      ipr := s.ipr ||| 0b1000 })

/-- 42_inputs_debounce.md R221, 70_reset_and_hazards.md R361: a settle window with `n` ticks to go delivers nothing in
the first `n` - 1 of them and exactly one CB_LIMIT, of the state at that moment, in the `n`-th; from `DELAY_MS ms`
with the callback wanted to CB_DELAY there are `ms` @MS_TICK steps, and no callback earlier. -/
def Obligations.CountdownsElapseExactly : Prop :=
  (∀ (s : State) (n : Nat), s.db.state = .counting → s.db.cnt ≠ 0 → n ≤ s.db.cnt.toNat →
    ∃ t, runInstrs (List.replicate n .dbTick) s = .next t ∧
      (n < s.db.cnt.toNat → t.db.state = .counting ∧ t.cbTrace = s.cbTrace ∧ t.ipr = s.ipr) ∧
      (n = s.db.cnt.toNat → t.db.state = .armed ∧ t.cbTrace = s.cbTrace ++ [.limit (limLogical s)] ∧
        t.limitEvt = limLogical s ∧ t.ipr = s.ipr ||| 0b0010)) ∧
  ∀ (s : State) (ms : BitVec 16) (n : Nat), s.tx.blocked = false → ms ≠ 0 → n ≤ ms.toNat →
    ∃ t, runInstrs (.delayMs true ms :: List.replicate n .msTick) s = .next t ∧
      t.dl.cnt.toNat = ms.toNat - n ∧
      (n < ms.toNat → t.cbTrace = s.cbTrace ∧ t.ipr = s.ipr) ∧
      (n = ms.toNat → t.cbTrace = s.cbTrace ++ [.delay] ∧ t.ipr = s.ipr ||| 0b1000 ∧ t.dl.cb = false)

/-! ## Callbacks, causes, traces -/

/-- 60_exceptions.md R296, R303, R307: a step delivers at most one callback; the trace grows by it, its pending bit is
set, its argument is latched, and no pending bit is cleared by anything but a write to IPR. -/
def Obligations.CallbackDelivery : Prop :=
  ∀ (i : Instr) (s t : State), exec i s = .next t → (∀ v, i ≠ Instr.wr 0x1C v) →
    (t.cbTrace = s.cbTrace ∧ t.ipr = s.ipr ∧ t.limitEvt = s.limitEvt ∧ t.controlEvt = s.controlEvt) ∨
    (t.cbTrace = s.cbTrace ++ [Callback.step] ∧ t.ipr = s.ipr ||| 0b0001 ∧ t.limitEvt = s.limitEvt ∧
      t.controlEvt = s.controlEvt) ∨
    (∃ v, t.cbTrace = s.cbTrace ++ [Callback.limit v] ∧ t.ipr = s.ipr ||| 0b0010 ∧ t.limitEvt = v ∧
      v = limLogical t ∧ t.controlEvt = s.controlEvt) ∨
    (∃ v, t.cbTrace = s.cbTrace ++ [Callback.control v] ∧ t.ipr = s.ipr ||| 0b0100 ∧ t.controlEvt = v ∧
      v = ctlDecode (ctlLogical t) ∧ t.limitEvt = s.limitEvt) ∨
    (t.cbTrace = s.cbTrace ++ [Callback.delay] ∧ t.ipr = s.ipr ||| 0b1000 ∧ t.limitEvt = s.limitEvt ∧
      t.controlEvt = s.controlEvt) ∨
    (∃ c, (c = Callback.block true ∨ c = Callback.block false ∨ ∃ b h, c = Callback.rt b h) ∧
      t.cbTrace = s.cbTrace ++ [c] ∧ t.ipr = s.ipr ∧ t.limitEvt = s.limitEvt ∧ t.controlEvt = s.controlEvt)

/-- 10_state.md R50, 60_exceptions.md R290, R291: causes are sticky: no step but a write of 1 to ERR clears one, and
no step sets more than one. -/
def Obligations.CausesAreSticky : Prop :=
  ∀ (i : Instr) (s t : State), exec i s = .next t →
    (∀ k, s.err.getLsbD k = true → t.err.getLsbD k = false → ∃ v, i = .wr 0x14 v ∧ v.getLsbD k = true) ∧
    (∀ j k, s.err.getLsbD j = false → t.err.getLsbD j = true → s.err.getLsbD k = false →
      t.err.getLsbD k = true → j = k)

/-- 10_state.md R48, R31, R37, 00_scope.md R11: no step changes a parameter, the inputs still to come or `tx.ovf`; the
traces only grow; RESULT is written by HOST commands and @PUT_RETRY only, ARG0 by a write to it only. -/
def Obligations.UntouchedByEveryStep : Prop :=
  ∀ (i : Instr) (s t : State), exec i s = .next t →
    t.par = s.par ∧ t.inbox = s.inbox ∧ t.tx.ovf = s.tx.ovf ∧
    s.txLine <+: t.txLine ∧ s.cbTrace <+: t.cbTrace ∧
    (t.result ≠ s.result → isCommand (issued i) = true ∨ ∃ c, i = .putRetry c) ∧
    (t.arg0 ≠ s.arg0 → ∃ v, i = .wr 0x04 v)

/-! ## Invariants -/

/-- 40_serial.md R154 (b), 20_memory.md R90: every step keeps the indices below the capacities and the buffers in
canonical form. -/
def Obligations.StepKeepsBuffers : Prop :=
  ∀ s t : State, BufferInv s → step s = .next t → BufferInv t

/-- 40_serial.md R154 (a), (c): every step keeps the transmit interrupt enabled exactly while a byte is buffered, so
TX_UNDERRUN is never raised. -/
def Obligations.StepKeepsTransmit : Prop :=
  ∀ s t : State, TransmitInv s → step s = .next t →
    TransmitInv t ∧ (t.err.getLsbD 8 = true → s.err.getLsbD 8 = true)

/-- 41_stepper.md R193, 44_aux.md R270, 10_state.md R34, R38, R41: every step keeps the invariants of the
configuration, of the pulse engine with its timer, and of the debounce machine. -/
def Obligations.StepKeepsEngines : Prop :=
  ∀ s t : State, s.par.valid = true → step s = .next t →
    (ConfigInv s → PulseInv s → ConfigInv t ∧ PulseInv t) ∧ (DebounceInv s → DebounceInv t)

/-- 10_state.md R33, R39, R43, R54, R55, R58: every step keeps per-axis fields within N_AXES bits, one drive a pin,
and at most one bit in CONTROL_EVT. -/
def Obligations.StepKeepsWidths : Prop :=
  ∀ s t : State, WidthInv s → step s = .next t → WidthInv t

/-- All invariants hold after reset, of every machine with legal parameters, whatever reset leaves unspecified. -/
def Obligations.ResetSatisfiesInvariants : Prop :=
  Inv State.reset ∧ ∀ (p : Params) (u : Unspecified), p.valid = true → Inv (resetWith p u)

/-- 10_state.md R65, 70_reset_and_hazards.md R331: State.reset, and every state right after a pulse on rst_n (the
input of assumption 13), has the table's value in every field the table gives one. -/
def Obligations.ResetLeavesTableValues : Prop :=
  ∀ t : State, (t = State.reset ∨ ∃ s u rest, s.inbox = .reset u :: rest ∧ step s = .next t) →
    (t.rx.head = 0 ∧ t.rx.tail = 0 ∧ t.rx.ovf = false ∧ t.rx.bkActive = false ∧ t.rx.suspended = false) ∧
    (t.bk.head = 0 ∧ t.bk.tail = 0 ∧ t.tx.head = 0 ∧ t.tx.tail = 0) ∧
    (t.tx.irqEn = false ∧ t.tx.blocked = false ∧ t.tx.ovf = false ∧ t.tdrFull = false) ∧
    t.pe = { state := .idle, stepL := 0, dirL := 0, stash := 0 } ∧
    t.pt = { run := false, cnt := 0, cmp := 0 } ∧ t.st = { en := false, period := 0, cnt := 0 } ∧
    t.db = { state := .idle, cnt := 0 } ∧ t.limitEvt = 0 ∧ t.controlEvt = 0 ∧
    t.sp = { enabled := false, ccw := false, applied := 0, effRpm := 0 } ∧
    t.pwm = { en := false, duty := 0 } ∧ t.spnPwmCmd = 0 ∧
    t.pw = { period := 0, offValue := 0, minValue := 0, maxValue := 0, gnum := 0, gden := 0 } ∧
    t.cl = { flood := false, mist := false } ∧ t.dl = { cnt := 0, cb := false } ∧
    t.ac = ActiveConfig.zero ∧ t.configured = false ∧ t.cfg = ShadowConfig.zero ∧
    (t.arg0 = 0 ∧ t.result = 0 ∧ t.result1 = 0 ∧ t.err = 0 ∧ t.ier = 0 ∧ t.ipr = 0) ∧
    t.txLine = [] ∧ t.cbTrace = []

/-- 70_reset_and_hazards.md R330, R332: whatever the state before, a pulse on rst_n is a step; what R332 leaves
unspecified is what came with the input (assumption 13), and the parameters and the inputs to come stay. -/
def Obligations.ResetTakesUnspecifiedValues : Prop :=
  ∀ (s : State) (u : Unspecified) (rest : List Input), s.inbox = .reset u :: rest → ∃ t, step s = .next t ∧
    t.par = s.par ∧ t.inbox = rest ∧
    (∀ j, j < s.par.rxCap → t.rx.data.read j = u.rxData.getD j 0 ∧ t.bk.data.read j = u.bkData.getD j 0) ∧
    (∀ j, j < s.par.txCap → t.tx.data.read j = u.txData.getD j 0) ∧ t.tdr = u.tdr ∧ t.tx.pend = u.txPend ∧
    drivenBy s.par.nAxes u.limFloat u.limLevel t.limDrv ∧ drivenBy 4 u.ctlFloat u.ctlLevel t.ctlDrv ∧
    t.prbDrv = (if u.prbFloat then .float else if u.prbLevel then .high else .low)
end

