-- ==== Sys2Proof/Laws/Bits.lean ====
section
/-! SUPPORT. Bits of assembled words, raw pin levels and the control decode. -/
namespace Sys2Proof.Machine

theorem getLsbD_bitsOf (w : Nat) (f : Nat → Bool) (i : Nat) :
    (bitsOf w f).getLsbD i = (decide (i < w) && f i) := by
  induction w with
  | zero => simp [bitsOf]
  | succ w ih =>
    rw [bitsOf, BitVec.getLsbD_cons]
    by_cases h : i = w
    · subst h; simp
    · by_cases hlt : i < w
      · rw [if_neg h, ih]; simp [hlt, show i < w + 1 by omega]
      · rw [if_neg h, ih]; simp [hlt, show ¬ i < w + 1 by omega]

/-- Bit i of a group's raw levels is pin i's level. -/
theorem getLsbD_rawBits {w : Nat} (ds : List Drive) (pull : BitVec w) (i : Nat) :
    (rawBits ds pull).getLsbD i = (decide (i < w) && rawLevel (ds.getD i .low) (pull.getLsbD i)) := by
  rw [rawBits, getLsbD_bitsOf]

theorem getLsbD_bitAt (b : Bool) (k i : Nat) :
    (bitAt b k).getLsbD i = (decide (i < 32) && (decide (i = k) && b)) := by
  unfold bitAt
  rw [BitVec.getLsbD_shiftLeft, BitVec.getLsbD_setWidth, BitVec.getLsbD_ofBool]
  by_cases h : i < 32
  · by_cases hk : i < k
    · simp [hk, show i ≠ k by omega]
    · by_cases he : i = k
      · subst he; simp [h]
      · simp [hk, he, show i - k ≠ 0 by omega]
  · simp [h]

theorem getLsbD_fieldAt {w : Nat} (v : BitVec w) (k i : Nat) :
    (fieldAt v k).getLsbD i = (decide (i < 32) && (decide (k ≤ i) && v.getLsbD (i - k))) := by
  unfold fieldAt
  rw [BitVec.getLsbD_shiftLeft, BitVec.getLsbD_setWidth]
  by_cases h : i < 32
  · by_cases hk : i < k
    · simp [hk, show ¬ k ≤ i by omega]
    · simp [hk, show i - k < 32 by omega, show k ≤ i by omega]
  · simp [h]

@[simp] theorem getLsbD_zext32 {w : Nat} (v : BitVec w) (i : Nat) :
    (zext32 v).getLsbD i = (decide (i < 32) && v.getLsbD i) := by
  unfold zext32
  exact BitVec.getLsbD_setWidth ..

/-- Bit i of the axis mask is set for the axes only. -/
theorem getLsbD_axisMask (p : Params) (h : p.nAxes ≤ 8) (i : Nat) :
    p.axisMask.getLsbD i = decide (i < p.nAxes) := by
  unfold Params.axisMask
  rw [BitVec.getLsbD_ofNat, Nat.testBit_two_pow_sub_one]
  by_cases hi : i < p.nAxes
  · simp [hi, show i < 8 by omega]
  · simp [hi]

theorem length_drivesOf {w : Nat} (n : Nat) (f l : BitVec w) : (drivesOf n f l).length = n := by
  simp [drivesOf]

/-- The drive an input stimulus gives pin i. -/
theorem getD_drivesOf {w : Nat} (n : Nat) (f l : BitVec w) {i : Nat} (h : i < n) :
    (drivesOf n f l).getD i .low = driveOf (f.getLsbD i) (l.getLsbD i) := by
  simp [drivesOf, List.getD, h]

theorem rises_iff {w : Nat} (old new : BitVec w) :
    rises old new = true ↔ ∃ i, i < w ∧ old.getLsbD i = false ∧ new.getLsbD i = true := by
  unfold rises
  rw [bne_iff_ne, ne_eq, ← not_iff_not, not_not]
  constructor
  · rintro h ⟨i, hi, ho, hn⟩
    have := congrArg (fun v => v.getLsbD i) h
    rw [BitVec.getLsbD_and, BitVec.getLsbD_not, hn, ho, decide_eq_true hi] at this
    simp at this
  · intro h
    apply BitVec.eq_of_getLsbD_eq
    intro i hi
    rw [BitVec.getLsbD_and, BitVec.getLsbD_not, decide_eq_true hi]
    cases ho : old.getLsbD i
    · cases hn : new.getLsbD i
      · simp
      · exact absurd ⟨i, hi, ho, hn⟩ h
    · simp

end Sys2Proof.Machine
end

