-- ==== Sys2Proof/Laws/State.lean ====
section
/-! SUPPORT. One lemma per field for each shared operation that updates the state: what it writes and what it leaves
alone, so that no later proof unfolds a record update. -/
namespace Sys2Proof.Machine

/-! ## The bit of each cause -/

@[simp] theorem bit_illegalCmd : Cause.illegalCmd.bit = 0x001 := rfl
@[simp] theorem bit_busy : Cause.busy.bit = 0x002 := rfl
@[simp] theorem bit_notConfigured : Cause.notConfigured.bit = 0x004 := rfl
@[simp] theorem bit_cfgInvalid : Cause.cfgInvalid.bit = 0x008 := rfl
@[simp] theorem bit_cfgBusy : Cause.cfgBusy.bit = 0x010 := rfl
@[simp] theorem bit_pulseOverrun : Cause.pulseOverrun.bit = 0x020 := rfl
@[simp] theorem bit_cancelInBackup : Cause.cancelInBackup.bit = 0x040 := rfl
@[simp] theorem bit_bus : Cause.bus.bit = 0x080 := rfl
@[simp] theorem bit_txUnderrun : Cause.txUnderrun.bit = 0x100 := rfl
@[simp] theorem bit_txAbort : Cause.txAbort.bit = 0x200 := rfl

/-! ## The pending bit of each callback -/

@[simp] theorem pending_step : Callback.step.pending = 0b0001 := rfl
@[simp] theorem pending_limit (v : BitVec 8) : (Callback.limit v).pending = 0b0010 := rfl
@[simp] theorem pending_control (v : BitVec 4) : (Callback.control v).pending = 0b0100 := rfl
@[simp] theorem pending_delay : Callback.delay.pending = 0b1000 := rfl
@[simp] theorem pending_rt (b : Byte) (h : Bool) : (Callback.rt b h).pending = 0 := rfl
@[simp] theorem pending_block (c : Bool) : (Callback.block c).pending = 0 := rfl

/-! ## raise -/

@[simp] theorem raise_par (c : Cause) (s : State) : (raise c s).par = s.par := rfl
@[simp] theorem raise_inbox (c : Cause) (s : State) : (raise c s).inbox = s.inbox := rfl
@[simp] theorem raise_rdata (c : Cause) (s : State) : (raise c s).rdata = s.rdata := rfl
@[simp] theorem raise_rx (c : Cause) (s : State) : (raise c s).rx = s.rx := rfl
@[simp] theorem raise_bk (c : Cause) (s : State) : (raise c s).bk = s.bk := rfl
@[simp] theorem raise_tx (c : Cause) (s : State) : (raise c s).tx = s.tx := rfl
@[simp] theorem raise_tdr (c : Cause) (s : State) : (raise c s).tdr = s.tdr := rfl
@[simp] theorem raise_tdrFull (c : Cause) (s : State) : (raise c s).tdrFull = s.tdrFull := rfl
@[simp] theorem raise_pe (c : Cause) (s : State) : (raise c s).pe = s.pe := rfl
@[simp] theorem raise_pt (c : Cause) (s : State) : (raise c s).pt = s.pt := rfl
@[simp] theorem raise_st (c : Cause) (s : State) : (raise c s).st = s.st := rfl
@[simp] theorem raise_limDrv (c : Cause) (s : State) : (raise c s).limDrv = s.limDrv := rfl
@[simp] theorem raise_ctlDrv (c : Cause) (s : State) : (raise c s).ctlDrv = s.ctlDrv := rfl
@[simp] theorem raise_prbDrv (c : Cause) (s : State) : (raise c s).prbDrv = s.prbDrv := rfl
@[simp] theorem raise_db (c : Cause) (s : State) : (raise c s).db = s.db := rfl
@[simp] theorem raise_limitEvt (c : Cause) (s : State) : (raise c s).limitEvt = s.limitEvt := rfl
@[simp] theorem raise_controlEvt (c : Cause) (s : State) : (raise c s).controlEvt = s.controlEvt := rfl
@[simp] theorem raise_sp (c : Cause) (s : State) : (raise c s).sp = s.sp := rfl
@[simp] theorem raise_pwm (c : Cause) (s : State) : (raise c s).pwm = s.pwm := rfl
@[simp] theorem raise_spnPwmCmd (c : Cause) (s : State) : (raise c s).spnPwmCmd = s.spnPwmCmd := rfl
@[simp] theorem raise_pw (c : Cause) (s : State) : (raise c s).pw = s.pw := rfl
@[simp] theorem raise_cl (c : Cause) (s : State) : (raise c s).cl = s.cl := rfl
@[simp] theorem raise_dl (c : Cause) (s : State) : (raise c s).dl = s.dl := rfl
@[simp] theorem raise_ac (c : Cause) (s : State) : (raise c s).ac = s.ac := rfl
@[simp] theorem raise_configured (c : Cause) (s : State) : (raise c s).configured = s.configured := rfl
@[simp] theorem raise_arg0 (c : Cause) (s : State) : (raise c s).arg0 = s.arg0 := rfl
@[simp] theorem raise_result (c : Cause) (s : State) : (raise c s).result = s.result := rfl
@[simp] theorem raise_result1 (c : Cause) (s : State) : (raise c s).result1 = s.result1 := rfl
@[simp] theorem raise_err (c : Cause) (s : State) : (raise c s).err = s.err ||| c.bit := rfl
@[simp] theorem raise_ier (c : Cause) (s : State) : (raise c s).ier = s.ier := rfl
@[simp] theorem raise_ipr (c : Cause) (s : State) : (raise c s).ipr = s.ipr := rfl
@[simp] theorem raise_cfg (c : Cause) (s : State) : (raise c s).cfg = s.cfg := rfl
@[simp] theorem raise_txLine (c : Cause) (s : State) : (raise c s).txLine = s.txLine := rfl
@[simp] theorem raise_cbTrace (c : Cause) (s : State) : (raise c s).cbTrace = s.cbTrace := rfl

/-! ## returns -/

@[simp] theorem returns_par (v : Word) (s : State) : (returns v s).par = s.par := rfl
@[simp] theorem returns_inbox (v : Word) (s : State) : (returns v s).inbox = s.inbox := rfl
@[simp] theorem returns_rdata (v : Word) (s : State) : (returns v s).rdata = s.rdata := rfl
@[simp] theorem returns_rx (v : Word) (s : State) : (returns v s).rx = s.rx := rfl
@[simp] theorem returns_bk (v : Word) (s : State) : (returns v s).bk = s.bk := rfl
@[simp] theorem returns_tx (v : Word) (s : State) : (returns v s).tx = s.tx := rfl
@[simp] theorem returns_tdr (v : Word) (s : State) : (returns v s).tdr = s.tdr := rfl
@[simp] theorem returns_tdrFull (v : Word) (s : State) : (returns v s).tdrFull = s.tdrFull := rfl
@[simp] theorem returns_pe (v : Word) (s : State) : (returns v s).pe = s.pe := rfl
@[simp] theorem returns_pt (v : Word) (s : State) : (returns v s).pt = s.pt := rfl
@[simp] theorem returns_st (v : Word) (s : State) : (returns v s).st = s.st := rfl
@[simp] theorem returns_limDrv (v : Word) (s : State) : (returns v s).limDrv = s.limDrv := rfl
@[simp] theorem returns_ctlDrv (v : Word) (s : State) : (returns v s).ctlDrv = s.ctlDrv := rfl
@[simp] theorem returns_prbDrv (v : Word) (s : State) : (returns v s).prbDrv = s.prbDrv := rfl
@[simp] theorem returns_db (v : Word) (s : State) : (returns v s).db = s.db := rfl
@[simp] theorem returns_limitEvt (v : Word) (s : State) : (returns v s).limitEvt = s.limitEvt := rfl
@[simp] theorem returns_controlEvt (v : Word) (s : State) : (returns v s).controlEvt = s.controlEvt := rfl
@[simp] theorem returns_sp (v : Word) (s : State) : (returns v s).sp = s.sp := rfl
@[simp] theorem returns_pwm (v : Word) (s : State) : (returns v s).pwm = s.pwm := rfl
@[simp] theorem returns_spnPwmCmd (v : Word) (s : State) : (returns v s).spnPwmCmd = s.spnPwmCmd := rfl
@[simp] theorem returns_pw (v : Word) (s : State) : (returns v s).pw = s.pw := rfl
@[simp] theorem returns_cl (v : Word) (s : State) : (returns v s).cl = s.cl := rfl
@[simp] theorem returns_dl (v : Word) (s : State) : (returns v s).dl = s.dl := rfl
@[simp] theorem returns_ac (v : Word) (s : State) : (returns v s).ac = s.ac := rfl
@[simp] theorem returns_configured (v : Word) (s : State) : (returns v s).configured = s.configured := rfl
@[simp] theorem returns_arg0 (v : Word) (s : State) : (returns v s).arg0 = s.arg0 := rfl
@[simp] theorem returns_result (v : Word) (s : State) : (returns v s).result = v := rfl
@[simp] theorem returns_result1 (v : Word) (s : State) : (returns v s).result1 = s.result1 := rfl
@[simp] theorem returns_err (v : Word) (s : State) : (returns v s).err = s.err := rfl
@[simp] theorem returns_ier (v : Word) (s : State) : (returns v s).ier = s.ier := rfl
@[simp] theorem returns_ipr (v : Word) (s : State) : (returns v s).ipr = s.ipr := rfl
@[simp] theorem returns_cfg (v : Word) (s : State) : (returns v s).cfg = s.cfg := rfl
@[simp] theorem returns_txLine (v : Word) (s : State) : (returns v s).txLine = s.txLine := rfl
@[simp] theorem returns_cbTrace (v : Word) (s : State) : (returns v s).cbTrace = s.cbTrace := rfl

/-! ## returnsTwo -/

@[simp] theorem returnsTwo_par (v w : Word) (s : State) : (returnsTwo v w s).par = s.par := rfl
@[simp] theorem returnsTwo_inbox (v w : Word) (s : State) : (returnsTwo v w s).inbox = s.inbox := rfl
@[simp] theorem returnsTwo_rdata (v w : Word) (s : State) : (returnsTwo v w s).rdata = s.rdata := rfl
@[simp] theorem returnsTwo_rx (v w : Word) (s : State) : (returnsTwo v w s).rx = s.rx := rfl
@[simp] theorem returnsTwo_bk (v w : Word) (s : State) : (returnsTwo v w s).bk = s.bk := rfl
@[simp] theorem returnsTwo_tx (v w : Word) (s : State) : (returnsTwo v w s).tx = s.tx := rfl
@[simp] theorem returnsTwo_tdr (v w : Word) (s : State) : (returnsTwo v w s).tdr = s.tdr := rfl
@[simp] theorem returnsTwo_tdrFull (v w : Word) (s : State) : (returnsTwo v w s).tdrFull = s.tdrFull := rfl
@[simp] theorem returnsTwo_pe (v w : Word) (s : State) : (returnsTwo v w s).pe = s.pe := rfl
@[simp] theorem returnsTwo_pt (v w : Word) (s : State) : (returnsTwo v w s).pt = s.pt := rfl
@[simp] theorem returnsTwo_st (v w : Word) (s : State) : (returnsTwo v w s).st = s.st := rfl
@[simp] theorem returnsTwo_limDrv (v w : Word) (s : State) : (returnsTwo v w s).limDrv = s.limDrv := rfl
@[simp] theorem returnsTwo_ctlDrv (v w : Word) (s : State) : (returnsTwo v w s).ctlDrv = s.ctlDrv := rfl
@[simp] theorem returnsTwo_prbDrv (v w : Word) (s : State) : (returnsTwo v w s).prbDrv = s.prbDrv := rfl
@[simp] theorem returnsTwo_db (v w : Word) (s : State) : (returnsTwo v w s).db = s.db := rfl
@[simp] theorem returnsTwo_limitEvt (v w : Word) (s : State) : (returnsTwo v w s).limitEvt = s.limitEvt := rfl
@[simp] theorem returnsTwo_controlEvt (v w : Word) (s : State) : (returnsTwo v w s).controlEvt = s.controlEvt := rfl
@[simp] theorem returnsTwo_sp (v w : Word) (s : State) : (returnsTwo v w s).sp = s.sp := rfl
@[simp] theorem returnsTwo_pwm (v w : Word) (s : State) : (returnsTwo v w s).pwm = s.pwm := rfl
@[simp] theorem returnsTwo_spnPwmCmd (v w : Word) (s : State) : (returnsTwo v w s).spnPwmCmd = s.spnPwmCmd := rfl
@[simp] theorem returnsTwo_pw (v w : Word) (s : State) : (returnsTwo v w s).pw = s.pw := rfl
@[simp] theorem returnsTwo_cl (v w : Word) (s : State) : (returnsTwo v w s).cl = s.cl := rfl
@[simp] theorem returnsTwo_dl (v w : Word) (s : State) : (returnsTwo v w s).dl = s.dl := rfl
@[simp] theorem returnsTwo_ac (v w : Word) (s : State) : (returnsTwo v w s).ac = s.ac := rfl
@[simp] theorem returnsTwo_configured (v w : Word) (s : State) : (returnsTwo v w s).configured = s.configured := rfl
@[simp] theorem returnsTwo_arg0 (v w : Word) (s : State) : (returnsTwo v w s).arg0 = s.arg0 := rfl
@[simp] theorem returnsTwo_result (v w : Word) (s : State) : (returnsTwo v w s).result = v := rfl
@[simp] theorem returnsTwo_result1 (v w : Word) (s : State) : (returnsTwo v w s).result1 = w := rfl
@[simp] theorem returnsTwo_err (v w : Word) (s : State) : (returnsTwo v w s).err = s.err := rfl
@[simp] theorem returnsTwo_ier (v w : Word) (s : State) : (returnsTwo v w s).ier = s.ier := rfl
@[simp] theorem returnsTwo_ipr (v w : Word) (s : State) : (returnsTwo v w s).ipr = s.ipr := rfl
@[simp] theorem returnsTwo_cfg (v w : Word) (s : State) : (returnsTwo v w s).cfg = s.cfg := rfl
@[simp] theorem returnsTwo_txLine (v w : Word) (s : State) : (returnsTwo v w s).txLine = s.txLine := rfl
@[simp] theorem returnsTwo_cbTrace (v w : Word) (s : State) : (returnsTwo v w s).cbTrace = s.cbTrace := rfl

/-! ## deliver -/

@[simp] theorem deliver_par (c : Callback) (s : State) : (deliver c s).par = s.par := rfl
@[simp] theorem deliver_inbox (c : Callback) (s : State) : (deliver c s).inbox = s.inbox := rfl
@[simp] theorem deliver_rdata (c : Callback) (s : State) : (deliver c s).rdata = s.rdata := rfl
@[simp] theorem deliver_rx (c : Callback) (s : State) : (deliver c s).rx = s.rx := rfl
@[simp] theorem deliver_bk (c : Callback) (s : State) : (deliver c s).bk = s.bk := rfl
@[simp] theorem deliver_tx (c : Callback) (s : State) : (deliver c s).tx = s.tx := rfl
@[simp] theorem deliver_tdr (c : Callback) (s : State) : (deliver c s).tdr = s.tdr := rfl
@[simp] theorem deliver_tdrFull (c : Callback) (s : State) : (deliver c s).tdrFull = s.tdrFull := rfl
@[simp] theorem deliver_pe (c : Callback) (s : State) : (deliver c s).pe = s.pe := rfl
@[simp] theorem deliver_pt (c : Callback) (s : State) : (deliver c s).pt = s.pt := rfl
@[simp] theorem deliver_st (c : Callback) (s : State) : (deliver c s).st = s.st := rfl
@[simp] theorem deliver_limDrv (c : Callback) (s : State) : (deliver c s).limDrv = s.limDrv := rfl
@[simp] theorem deliver_ctlDrv (c : Callback) (s : State) : (deliver c s).ctlDrv = s.ctlDrv := rfl
@[simp] theorem deliver_prbDrv (c : Callback) (s : State) : (deliver c s).prbDrv = s.prbDrv := rfl
@[simp] theorem deliver_db (c : Callback) (s : State) : (deliver c s).db = s.db := rfl
@[simp] theorem deliver_limitEvt (c : Callback) (s : State) : (deliver c s).limitEvt = c.limitLatch s.limitEvt := rfl
@[simp] theorem deliver_controlEvt (c : Callback) (s : State) : (deliver c s).controlEvt = c.controlLatch s.controlEvt := rfl
@[simp] theorem deliver_sp (c : Callback) (s : State) : (deliver c s).sp = s.sp := rfl
@[simp] theorem deliver_pwm (c : Callback) (s : State) : (deliver c s).pwm = s.pwm := rfl
@[simp] theorem deliver_spnPwmCmd (c : Callback) (s : State) : (deliver c s).spnPwmCmd = s.spnPwmCmd := rfl
@[simp] theorem deliver_pw (c : Callback) (s : State) : (deliver c s).pw = s.pw := rfl
@[simp] theorem deliver_cl (c : Callback) (s : State) : (deliver c s).cl = s.cl := rfl
@[simp] theorem deliver_dl (c : Callback) (s : State) : (deliver c s).dl = s.dl := rfl
@[simp] theorem deliver_ac (c : Callback) (s : State) : (deliver c s).ac = s.ac := rfl
@[simp] theorem deliver_configured (c : Callback) (s : State) : (deliver c s).configured = s.configured := rfl
@[simp] theorem deliver_arg0 (c : Callback) (s : State) : (deliver c s).arg0 = s.arg0 := rfl
@[simp] theorem deliver_result (c : Callback) (s : State) : (deliver c s).result = s.result := rfl
@[simp] theorem deliver_result1 (c : Callback) (s : State) : (deliver c s).result1 = s.result1 := rfl
@[simp] theorem deliver_err (c : Callback) (s : State) : (deliver c s).err = s.err := rfl
@[simp] theorem deliver_ier (c : Callback) (s : State) : (deliver c s).ier = s.ier := rfl
@[simp] theorem deliver_ipr (c : Callback) (s : State) : (deliver c s).ipr = s.ipr ||| c.pending := rfl
@[simp] theorem deliver_cfg (c : Callback) (s : State) : (deliver c s).cfg = s.cfg := rfl
@[simp] theorem deliver_txLine (c : Callback) (s : State) : (deliver c s).txLine = s.txLine := rfl
@[simp] theorem deliver_cbTrace (c : Callback) (s : State) : (deliver c s).cbTrace = s.cbTrace ++ [c] := rfl

/-! ## acknowledge -/

@[simp] theorem acknowledge_par (b : BitVec 4) (s : State) : (acknowledge b s).par = s.par := rfl
@[simp] theorem acknowledge_inbox (b : BitVec 4) (s : State) : (acknowledge b s).inbox = s.inbox := rfl
@[simp] theorem acknowledge_rdata (b : BitVec 4) (s : State) : (acknowledge b s).rdata = s.rdata := rfl
@[simp] theorem acknowledge_rx (b : BitVec 4) (s : State) : (acknowledge b s).rx = s.rx := rfl
@[simp] theorem acknowledge_bk (b : BitVec 4) (s : State) : (acknowledge b s).bk = s.bk := rfl
@[simp] theorem acknowledge_tx (b : BitVec 4) (s : State) : (acknowledge b s).tx = s.tx := rfl
@[simp] theorem acknowledge_tdr (b : BitVec 4) (s : State) : (acknowledge b s).tdr = s.tdr := rfl
@[simp] theorem acknowledge_tdrFull (b : BitVec 4) (s : State) : (acknowledge b s).tdrFull = s.tdrFull := rfl
@[simp] theorem acknowledge_pe (b : BitVec 4) (s : State) : (acknowledge b s).pe = s.pe := rfl
@[simp] theorem acknowledge_pt (b : BitVec 4) (s : State) : (acknowledge b s).pt = s.pt := rfl
@[simp] theorem acknowledge_st (b : BitVec 4) (s : State) : (acknowledge b s).st = s.st := rfl
@[simp] theorem acknowledge_limDrv (b : BitVec 4) (s : State) : (acknowledge b s).limDrv = s.limDrv := rfl
@[simp] theorem acknowledge_ctlDrv (b : BitVec 4) (s : State) : (acknowledge b s).ctlDrv = s.ctlDrv := rfl
@[simp] theorem acknowledge_prbDrv (b : BitVec 4) (s : State) : (acknowledge b s).prbDrv = s.prbDrv := rfl
@[simp] theorem acknowledge_db (b : BitVec 4) (s : State) : (acknowledge b s).db = s.db := rfl
@[simp] theorem acknowledge_limitEvt (b : BitVec 4) (s : State) : (acknowledge b s).limitEvt = s.limitEvt := rfl
@[simp] theorem acknowledge_controlEvt (b : BitVec 4) (s : State) : (acknowledge b s).controlEvt = s.controlEvt := rfl
@[simp] theorem acknowledge_sp (b : BitVec 4) (s : State) : (acknowledge b s).sp = s.sp := rfl
@[simp] theorem acknowledge_pwm (b : BitVec 4) (s : State) : (acknowledge b s).pwm = s.pwm := rfl
@[simp] theorem acknowledge_spnPwmCmd (b : BitVec 4) (s : State) : (acknowledge b s).spnPwmCmd = s.spnPwmCmd := rfl
@[simp] theorem acknowledge_pw (b : BitVec 4) (s : State) : (acknowledge b s).pw = s.pw := rfl
@[simp] theorem acknowledge_cl (b : BitVec 4) (s : State) : (acknowledge b s).cl = s.cl := rfl
@[simp] theorem acknowledge_dl (b : BitVec 4) (s : State) : (acknowledge b s).dl = s.dl := rfl
@[simp] theorem acknowledge_ac (b : BitVec 4) (s : State) : (acknowledge b s).ac = s.ac := rfl
@[simp] theorem acknowledge_configured (b : BitVec 4) (s : State) : (acknowledge b s).configured = s.configured := rfl
@[simp] theorem acknowledge_arg0 (b : BitVec 4) (s : State) : (acknowledge b s).arg0 = s.arg0 := rfl
@[simp] theorem acknowledge_result (b : BitVec 4) (s : State) : (acknowledge b s).result = s.result := rfl
@[simp] theorem acknowledge_result1 (b : BitVec 4) (s : State) : (acknowledge b s).result1 = s.result1 := rfl
@[simp] theorem acknowledge_err (b : BitVec 4) (s : State) : (acknowledge b s).err = s.err := rfl
@[simp] theorem acknowledge_ier (b : BitVec 4) (s : State) : (acknowledge b s).ier = s.ier := rfl
@[simp] theorem acknowledge_ipr (b : BitVec 4) (s : State) : (acknowledge b s).ipr = s.ipr &&& ~~~b := rfl
@[simp] theorem acknowledge_cfg (b : BitVec 4) (s : State) : (acknowledge b s).cfg = s.cfg := rfl
@[simp] theorem acknowledge_txLine (b : BitVec 4) (s : State) : (acknowledge b s).txLine = s.txLine := rfl
@[simp] theorem acknowledge_cbTrace (b : BitVec 4) (s : State) : (acknowledge b s).cbTrace = s.cbTrace := rfl

/-! ## clearCauses -/

@[simp] theorem clearCauses_par (b : BitVec 10) (s : State) : (clearCauses b s).par = s.par := rfl
@[simp] theorem clearCauses_inbox (b : BitVec 10) (s : State) : (clearCauses b s).inbox = s.inbox := rfl
@[simp] theorem clearCauses_rdata (b : BitVec 10) (s : State) : (clearCauses b s).rdata = s.rdata := rfl
@[simp] theorem clearCauses_rx (b : BitVec 10) (s : State) : (clearCauses b s).rx = s.rx := rfl
@[simp] theorem clearCauses_bk (b : BitVec 10) (s : State) : (clearCauses b s).bk = s.bk := rfl
@[simp] theorem clearCauses_tx (b : BitVec 10) (s : State) : (clearCauses b s).tx = s.tx := rfl
@[simp] theorem clearCauses_tdr (b : BitVec 10) (s : State) : (clearCauses b s).tdr = s.tdr := rfl
@[simp] theorem clearCauses_tdrFull (b : BitVec 10) (s : State) : (clearCauses b s).tdrFull = s.tdrFull := rfl
@[simp] theorem clearCauses_pe (b : BitVec 10) (s : State) : (clearCauses b s).pe = s.pe := rfl
@[simp] theorem clearCauses_pt (b : BitVec 10) (s : State) : (clearCauses b s).pt = s.pt := rfl
@[simp] theorem clearCauses_st (b : BitVec 10) (s : State) : (clearCauses b s).st = s.st := rfl
@[simp] theorem clearCauses_limDrv (b : BitVec 10) (s : State) : (clearCauses b s).limDrv = s.limDrv := rfl
@[simp] theorem clearCauses_ctlDrv (b : BitVec 10) (s : State) : (clearCauses b s).ctlDrv = s.ctlDrv := rfl
@[simp] theorem clearCauses_prbDrv (b : BitVec 10) (s : State) : (clearCauses b s).prbDrv = s.prbDrv := rfl
@[simp] theorem clearCauses_db (b : BitVec 10) (s : State) : (clearCauses b s).db = s.db := rfl
@[simp] theorem clearCauses_limitEvt (b : BitVec 10) (s : State) : (clearCauses b s).limitEvt = s.limitEvt := rfl
@[simp] theorem clearCauses_controlEvt (b : BitVec 10) (s : State) : (clearCauses b s).controlEvt = s.controlEvt := rfl
@[simp] theorem clearCauses_sp (b : BitVec 10) (s : State) : (clearCauses b s).sp = s.sp := rfl
@[simp] theorem clearCauses_pwm (b : BitVec 10) (s : State) : (clearCauses b s).pwm = s.pwm := rfl
@[simp] theorem clearCauses_spnPwmCmd (b : BitVec 10) (s : State) : (clearCauses b s).spnPwmCmd = s.spnPwmCmd := rfl
@[simp] theorem clearCauses_pw (b : BitVec 10) (s : State) : (clearCauses b s).pw = s.pw := rfl
@[simp] theorem clearCauses_cl (b : BitVec 10) (s : State) : (clearCauses b s).cl = s.cl := rfl
@[simp] theorem clearCauses_dl (b : BitVec 10) (s : State) : (clearCauses b s).dl = s.dl := rfl
@[simp] theorem clearCauses_ac (b : BitVec 10) (s : State) : (clearCauses b s).ac = s.ac := rfl
@[simp] theorem clearCauses_configured (b : BitVec 10) (s : State) : (clearCauses b s).configured = s.configured := rfl
@[simp] theorem clearCauses_arg0 (b : BitVec 10) (s : State) : (clearCauses b s).arg0 = s.arg0 := rfl
@[simp] theorem clearCauses_result (b : BitVec 10) (s : State) : (clearCauses b s).result = s.result := rfl
@[simp] theorem clearCauses_result1 (b : BitVec 10) (s : State) : (clearCauses b s).result1 = s.result1 := rfl
@[simp] theorem clearCauses_err (b : BitVec 10) (s : State) : (clearCauses b s).err = s.err &&& ~~~b := rfl
@[simp] theorem clearCauses_ier (b : BitVec 10) (s : State) : (clearCauses b s).ier = s.ier := rfl
@[simp] theorem clearCauses_ipr (b : BitVec 10) (s : State) : (clearCauses b s).ipr = s.ipr := rfl
@[simp] theorem clearCauses_cfg (b : BitVec 10) (s : State) : (clearCauses b s).cfg = s.cfg := rfl
@[simp] theorem clearCauses_txLine (b : BitVec 10) (s : State) : (clearCauses b s).txLine = s.txLine := rfl
@[simp] theorem clearCauses_cbTrace (b : BitVec 10) (s : State) : (clearCauses b s).cbTrace = s.cbTrace := rfl

/-! ## readReturns -/

@[simp] theorem readReturns_par (v : Word) (s : State) : (readReturns v s).par = s.par := rfl
@[simp] theorem readReturns_inbox (v : Word) (s : State) : (readReturns v s).inbox = s.inbox := rfl
@[simp] theorem readReturns_rdata (v : Word) (s : State) : (readReturns v s).rdata = v := rfl
@[simp] theorem readReturns_rx (v : Word) (s : State) : (readReturns v s).rx = s.rx := rfl
@[simp] theorem readReturns_bk (v : Word) (s : State) : (readReturns v s).bk = s.bk := rfl
@[simp] theorem readReturns_tx (v : Word) (s : State) : (readReturns v s).tx = s.tx := rfl
@[simp] theorem readReturns_tdr (v : Word) (s : State) : (readReturns v s).tdr = s.tdr := rfl
@[simp] theorem readReturns_tdrFull (v : Word) (s : State) : (readReturns v s).tdrFull = s.tdrFull := rfl
@[simp] theorem readReturns_pe (v : Word) (s : State) : (readReturns v s).pe = s.pe := rfl
@[simp] theorem readReturns_pt (v : Word) (s : State) : (readReturns v s).pt = s.pt := rfl
@[simp] theorem readReturns_st (v : Word) (s : State) : (readReturns v s).st = s.st := rfl
@[simp] theorem readReturns_limDrv (v : Word) (s : State) : (readReturns v s).limDrv = s.limDrv := rfl
@[simp] theorem readReturns_ctlDrv (v : Word) (s : State) : (readReturns v s).ctlDrv = s.ctlDrv := rfl
@[simp] theorem readReturns_prbDrv (v : Word) (s : State) : (readReturns v s).prbDrv = s.prbDrv := rfl
@[simp] theorem readReturns_db (v : Word) (s : State) : (readReturns v s).db = s.db := rfl
@[simp] theorem readReturns_limitEvt (v : Word) (s : State) : (readReturns v s).limitEvt = s.limitEvt := rfl
@[simp] theorem readReturns_controlEvt (v : Word) (s : State) : (readReturns v s).controlEvt = s.controlEvt := rfl
@[simp] theorem readReturns_sp (v : Word) (s : State) : (readReturns v s).sp = s.sp := rfl
@[simp] theorem readReturns_pwm (v : Word) (s : State) : (readReturns v s).pwm = s.pwm := rfl
@[simp] theorem readReturns_spnPwmCmd (v : Word) (s : State) : (readReturns v s).spnPwmCmd = s.spnPwmCmd := rfl
@[simp] theorem readReturns_pw (v : Word) (s : State) : (readReturns v s).pw = s.pw := rfl
@[simp] theorem readReturns_cl (v : Word) (s : State) : (readReturns v s).cl = s.cl := rfl
@[simp] theorem readReturns_dl (v : Word) (s : State) : (readReturns v s).dl = s.dl := rfl
@[simp] theorem readReturns_ac (v : Word) (s : State) : (readReturns v s).ac = s.ac := rfl
@[simp] theorem readReturns_configured (v : Word) (s : State) : (readReturns v s).configured = s.configured := rfl
@[simp] theorem readReturns_arg0 (v : Word) (s : State) : (readReturns v s).arg0 = s.arg0 := rfl
@[simp] theorem readReturns_result (v : Word) (s : State) : (readReturns v s).result = s.result := rfl
@[simp] theorem readReturns_result1 (v : Word) (s : State) : (readReturns v s).result1 = s.result1 := rfl
@[simp] theorem readReturns_err (v : Word) (s : State) : (readReturns v s).err = s.err := rfl
@[simp] theorem readReturns_ier (v : Word) (s : State) : (readReturns v s).ier = s.ier := rfl
@[simp] theorem readReturns_ipr (v : Word) (s : State) : (readReturns v s).ipr = s.ipr := rfl
@[simp] theorem readReturns_cfg (v : Word) (s : State) : (readReturns v s).cfg = s.cfg := rfl
@[simp] theorem readReturns_txLine (v : Word) (s : State) : (readReturns v s).txLine = s.txLine := rfl
@[simp] theorem readReturns_cbTrace (v : Word) (s : State) : (readReturns v s).cbTrace = s.cbTrace := rfl

end Sys2Proof.Machine
end

