-- ==== Sys2Proof/Laws/Ops.lean ====
section
/-! SUPPORT. One specification for each shared operation: what a HOST command can answer, what SetSpeed and the lazy
refresh write. -/
namespace Sys2Proof.Machine

/-! ## The tests around a HOST command -/

theorem hostCommand_busy {g : Bool} {body : State → State} {s : State} (h : s.tx.blocked = true) :
    hostCommand g body s = .next (raise .busy s) := by simp [hostCommand, h]

theorem hostCommand_gate {body : State → State} {s : State} (h : s.tx.blocked = false)
    (hc : s.configured = false) : hostCommand true body s = .next (raise .notConfigured s) := by
  simp [hostCommand, h, hc]

theorem hostCommand_runs {g : Bool} {body : State → State} {s : State} (h : s.tx.blocked = false)
    (hc : g = true → s.configured = true) : hostCommand g body s = .next (body s) := by
  cases g <;> simp_all [hostCommand]

/-- Everything a HOST command can answer: a refusal as BUSY, a refusal as NOT_CONFIGURED, or its body. -/
theorem hostCommand_cases {g : Bool} {body : State → State} {s t : State}
    (h : hostCommand g body s = .next t) :
    (s.tx.blocked = true ∧ t = raise .busy s) ∨
      (s.tx.blocked = false ∧ g = true ∧ s.configured = false ∧ t = raise .notConfigured s) ∨
      (s.tx.blocked = false ∧ (g = true → s.configured = true) ∧ t = body s) := by
  unfold hostCommand at h
  split at h
  · next hb => injection h with h; exact .inl ⟨hb, h.symm⟩
  · next hb =>
    split at h
    · next hg =>
      injection h with h
      simp only [Bool.and_eq_true, Bool.not_eq_true'] at hg
      exact .inr (.inl ⟨by simpa using hb, hg.1, hg.2, h.symm⟩)
    · next hg =>
      injection h with h
      refine .inr (.inr ⟨by simpa using hb, fun h1 => ?_, h.symm⟩)
      simpa [h1] using hg

/-- A HOST command always answers a next state. -/
theorem hostCommand_next (g : Bool) (body : State → State) (s : State) :
    ∃ t, hostCommand g body s = .next t := by
  unfold hostCommand
  split
  · exact ⟨_, rfl⟩
  · split <;> exact ⟨_, rfl⟩

/-! ## SetSpeed and the lazy refresh -/

/-- What SetSpeed writes: the spindle enable, the two bookkeeping values, the PWM output; nothing else. -/
theorem setSpeed_frame (d : BitVec 16) (s : State) :
    setSpeed d s =
      { s with
        sp := (setSpeed d s).sp
        pwm := (setSpeed d s).pwm
        spnPwmCmd := d } := by
  unfold setSpeed driveSpeed
  split <;> rfl

@[simp] theorem setSpeed_applied (d : BitVec 16) (s : State) : (setSpeed d s).sp.applied = d := rfl

@[simp] theorem setSpeed_spnPwmCmd (d : BitVec 16) (s : State) : (setSpeed d s).spnPwmCmd = d := rfl

@[simp] theorem setSpeed_ccw (d : BitVec 16) (s : State) : (setSpeed d s).sp.ccw = s.sp.ccw := by
  unfold setSpeed driveSpeed
  split <;> rfl

@[simp] theorem setSpeed_effRpm (d : BitVec 16) (s : State) : (setSpeed d s).sp.effRpm = s.sp.effRpm := by
  unfold setSpeed driveSpeed
  split <;> rfl

/-- The lazy refresh either does nothing or is SetSpeed of the commanded value. -/
theorem lazySpindleRefresh_cases (s : State) :
    (lazySpindleRefresh s = s ∧ (s.ac.varSpeed = false ∨ s.spnPwmCmd = s.sp.applied)) ∨
      (lazySpindleRefresh s = setSpeed s.spnPwmCmd s ∧ s.ac.varSpeed = true ∧
        s.spnPwmCmd ≠ s.sp.applied) := by
  unfold lazySpindleRefresh
  split
  · next h =>
    simp only [Bool.and_eq_true, bne_iff_ne, ne_eq] at h
    exact .inr ⟨rfl, h⟩
  · next h =>
    refine .inl ⟨rfl, ?_⟩
    simp only [Bool.and_eq_true, bne_iff_ne, ne_eq, not_and, not_not] at h
    cases hv : s.ac.varSpeed
    · exact .inl rfl
    · exact .inr (h hv)

end Sys2Proof.Machine
end

