-- ==== Sys2Proof/Laws/Bus.lean ====
section
/-! SUPPORT. What a bus write can do, said once: which command a word written to CMD is, and the five ways a WR
ends. -/
namespace Sys2Proof.Machine

/-- A decoded word is a command. -/
theorem isCommand_of_decodeCommand {w : Word} {i : Instr} (h : decodeCommand w = some i) : isCommand i = true := by
  unfold decodeCommand at h
  obtain ⟨r, hr, rfl⟩ := Option.map_eq_some_iff.mp h
  have hm : r ∈ commandRows := List.mem_of_find?_eq_some hr
  simp only [commandRows, List.cons_append, List.nil_append, List.mem_cons, List.not_mem_nil, or_false] at hm
  rcases hm with h | h | h | h | h | h | h | h | h | h | h | h | h | h | h | h | h | h | h | h | h | h | h | h <;>
    (subst h; rfl)

/-- A command issued through CMD is that command (30_encoding.md R113). -/
theorem runCommand_eq_exec {i : Instr} (h : isCommand i = true) (s : State) : runCommand i s = exec i s := by
  cases i <;> first | rfl | cases h

/-- A word written to CMD that encodes a command is that command. -/
theorem exec_wr_cmd {w : Word} {i : Instr} (h : decodeCommand w = some i) (s : State) :
    exec (.wr 0x00 w) s = exec i s := by
  show issueWord w s = _
  rw [issueWord, h]
  exact runCommand_eq_exec (isCommand_of_decodeCommand h) s

/-- The register at address 0 is CMD, and no other address is. -/
theorem ofAddr_cmd_iff (a : Byte) : Reg.ofAddr a = some .cmd ↔ a = 0x00 := by
  constructor
  · intro h
    have := List.find?_some h
    simpa [Reg.addr] using (beq_iff_eq.mp this).symm
  · rintro rfl; rfl

/-- A WR is a command, an illegal word refused (as BUSY or as illegal), an access error, or a register write. -/
theorem exec_wr_cases {a : Byte} {w : Word} {s t : State} (h : exec (.wr a w) s = .next t) :
    (a = 0x00 ∧ ∃ i, decodeCommand w = some i ∧ isCommand i = true ∧ exec i s = .next t) ∨
    (a = 0x00 ∧ decodeCommand w = none ∧
      ((s.tx.blocked = true ∧ t = raise .busy s) ∨ (s.tx.blocked = false ∧ t = raise .illegalCmd s))) ∨
    t = raise .bus s ∨
    ∃ r, Reg.ofAddr a = some r ∧ (r.kind = .readWrite ∨ r.kind = .writeOneToClear) ∧ t = r.write w s := by
  simp only [exec, execWr] at h
  split at h
  · injection h with h; exact .inr (.inr (.inl h.symm))
  · next r hr =>
    split at h
    · injection h with h; exact .inr (.inr (.inl h.symm))
    · next hk =>
      have hc : r = .cmd := by cases r <;> first | rfl | cases hk
      have ha : a = 0x00 := (ofAddr_cmd_iff a).mp (hc ▸ hr)
      cases hd : decodeCommand w with
      | none =>
        simp only [issueWord, hd] at h
        rcases hostCommand_cases h with ⟨hb, ht⟩ | ⟨-, hg, -⟩ | ⟨hb, -, ht⟩
        · exact .inr (.inl ⟨ha, rfl, .inl ⟨hb, ht⟩⟩)
        · cases hg
        · exact .inr (.inl ⟨ha, rfl, .inr ⟨hb, ht⟩⟩)
      | some i =>
        simp only [issueWord, hd] at h
        have hi := isCommand_of_decodeCommand hd
        exact .inl ⟨ha, i, rfl, hi, by rw [← runCommand_eq_exec hi]; exact h⟩
    · next hk => injection h with h; exact .inr (.inr (.inr ⟨r, hr, .inl hk, h.symm⟩))
    · next hk => injection h with h; exact .inr (.inr (.inr ⟨r, hr, .inr hk, h.symm⟩))

/-- A register write touches ARG0, ERR, IER, IPR, SPN_PWM_CMD and the shadow configuration only. -/
theorem write_frame (r : Reg) (v : Word) (s : State) :
    r.write v s =
      { s with
        arg0 := (r.write v s).arg0
        err := (r.write v s).err
        ier := (r.write v s).ier
        ipr := (r.write v s).ipr
        spnPwmCmd := (r.write v s).spnPwmCmd
        cfg := (r.write v s).cfg } := by
  cases r <;> rfl

/-- A RD answers a next state that differs in `rdata`, and in ERR if the access is refused. -/
theorem exec_rd_cases (a : Byte) (w : Word) (s : State) :
    (Reg.ofAddr a = none ∧ exec (.rd a w) s = .next { s with rdata := 0, err := s.err ||| Cause.bus.bit }) ∨
    ∃ r, Reg.ofAddr a = some r ∧ exec (.rd a w) s = .next { s with rdata := r.read s } := by
  simp only [exec, execRd]
  split
  · next h => exact .inl ⟨h, rfl⟩
  · next r h => exact .inr ⟨r, h, rfl⟩

end Sys2Proof.Machine
end

