-- ==== Sys2Proof/Laws/Memory.lean ====
section
/-! SUPPORT. The laws of a buffer's cells: a read after a write, the canonical form that every operation keeps, and
that equal contents are equal data. -/
namespace Sys2Proof.Machine

theorem Memory.wfFrom_mono {lo lo' : Nat} {m : Memory} (h : lo' ≤ lo) (hm : wfFrom lo m = true) :
    wfFrom lo' m = true := by
  cases m with
  | nil => rfl
  | cons c rest =>
    obtain ⟨k, b⟩ := c
    simp only [wfFrom, Bool.and_eq_true, decide_eq_true_eq] at hm ⊢
    exact ⟨⟨by omega, hm.1.2⟩, hm.2⟩

/-- Below the first cell everything reads as unwritten. -/
theorem Memory.read_of_lt {lo i : Nat} {m : Memory} (hm : wfFrom lo m = true) (h : i < lo) :
    read m i = unwritten := by
  induction m generalizing lo with
  | nil => rfl
  | cons c rest ih =>
    obtain ⟨k, b⟩ := c
    simp only [wfFrom, Bool.and_eq_true, decide_eq_true_eq] at hm
    have hk : k ≠ i := by omega
    simp only [read, if_neg hk]
    exact ih hm.2 (by omega)

theorem Memory.wfFrom_write {lo i : Nat} {v : Byte} {m : Memory} (hm : wfFrom lo m = true) (h : lo ≤ i) :
    wfFrom lo (write m i v) = true := by
  induction m generalizing lo with
  | nil =>
    by_cases hv : v = unwritten <;> simp [write, wfFrom, hv, h]
  | cons c rest ih =>
    obtain ⟨k, b⟩ := c
    have hm' := hm
    simp only [wfFrom, Bool.and_eq_true, decide_eq_true_eq] at hm
    simp only [write]
    split
    · split
      · exact hm'
      · next hlt hv =>
        simp only [wfFrom, Bool.and_eq_true, decide_eq_true_eq, bne_iff_ne, ne_eq]
        exact ⟨⟨h, hv⟩, ⟨by omega, by simpa using hm.1.2⟩, hm.2⟩
    · split
      · next heq =>
        subst heq
        split
        · exact wfFrom_mono (by omega) hm.2
        · next hv =>
          simp only [wfFrom, Bool.and_eq_true, decide_eq_true_eq, bne_iff_ne, ne_eq]
          exact ⟨⟨h, hv⟩, hm.2⟩
      · simp only [wfFrom, Bool.and_eq_true, decide_eq_true_eq]
        exact ⟨⟨hm.1.1, hm.1.2⟩, ih hm.2 (by omega)⟩

/-- A write keeps the canonical form. -/
theorem Memory.wf_write {m : Memory} (hm : m.wf = true) (i : Nat) (v : Byte) : (m.write i v).wf = true :=
  wfFrom_write hm (Nat.zero_le i)

/-- A read after a write to a canonical array: the value at the index written, the old value elsewhere. -/
theorem Memory.read_write_from {lo : Nat} {m : Memory} (hm : wfFrom lo m = true) (i j : Nat) (v : Byte) :
    read (write m i v) j = if j = i then v else read m j := by
  induction m generalizing lo with
  | nil =>
    by_cases hv : v = unwritten
    · simp [write, read, hv]
    · by_cases hj : j = i
      · subst hj; simp [write, read, hv]
      · simp [write, read, hv, hj, Ne.symm hj]
  | cons c rest ih =>
    obtain ⟨k, b⟩ := c
    have hm' := hm
    simp only [wfFrom, Bool.and_eq_true, decide_eq_true_eq] at hm
    simp only [write]
    split
    · next hlt =>
      have hi : read ((k, b) :: rest) i = unwritten := by
        have hk : k ≠ i := by omega
        simp only [read, if_neg hk]
        exact read_of_lt hm.2 (by omega)
      split
      · next hv =>
        by_cases hj : j = i
        · subst hj; rw [if_pos rfl, hi, hv]
        · rw [if_neg hj]
      · by_cases hj : j = i
        · subst hj; simp [read]
        · rw [if_neg hj]; conv_lhs => unfold read
          rw [if_neg (Ne.symm hj)]
    · split
      · next heq =>
        subst heq
        split
        · next hv =>
          by_cases hj : j = i
          · subst hj; rw [if_pos rfl, hv]; exact read_of_lt hm.2 (by omega)
          · rw [if_neg hj]; simp only [read, if_neg (Ne.symm hj)]
        · by_cases hj : j = i
          · subst hj; simp [read]
          · rw [if_neg hj]; simp only [read, if_neg (Ne.symm hj)]
      · next hlt hne =>
        by_cases hk : k = j
        · subst hk
          have : k ≠ i := fun h => hne h.symm
          simp [read, this]
        · simp only [read, if_neg hk]
          exact ih hm.2

/-- The law of `MemRead` and `MemWrite`. -/
theorem Memory.read_write {m : Memory} (hm : m.wf = true) (i j : Nat) (v : Byte) :
    (m.write i v).read j = if j = i then v else m.read j :=
  read_write_from hm i j v

theorem Memory.read_write_same {m : Memory} (hm : m.wf = true) (i : Nat) (v : Byte) :
    (m.write i v).read i = v := by rw [read_write hm, if_pos rfl]

theorem Memory.read_write_other {m : Memory} (hm : m.wf = true) {i j : Nat} (h : j ≠ i) (v : Byte) :
    (m.write i v).read j = m.read j := by rw [read_write hm, if_neg h]

/-- A write below the capacity adds no cell at or above it. -/
theorem Memory.below_write {cap i : Nat} {m : Memory} (hm : m.below cap = true) (h : i < cap) (v : Byte) :
    (m.write i v).below cap = true := by
  induction m with
  | nil => by_cases hv : v = unwritten <;> simp [write, below, hv, h]
  | cons c rest ih =>
    obtain ⟨k, b⟩ := c
    simp only [below, List.all_cons, Bool.and_eq_true, decide_eq_true_eq] at hm ih ⊢
    simp only [write]
    split
    · split <;> simp [hm, h]
    · split
      · split
        · exact hm.2
        · simp [hm, h]
      · simp only [List.all_cons, Bool.and_eq_true, decide_eq_true_eq]
        exact ⟨hm.1, ih hm.2⟩

theorem Memory.wfFrom_ofBytes (i : Nat) (bs : List Byte) : wfFrom i (ofBytes i bs) = true := by
  induction bs generalizing i with
  | nil => rfl
  | cons b rest ih => exact wfFrom_write (wfFrom_mono (Nat.le_succ i) (ih (i + 1))) (le_refl i)

/-- An array given whole is canonical. -/
theorem Memory.wf_ofBytes (bs : List Byte) : (ofBytes 0 bs).wf = true := wfFrom_ofBytes 0 bs

theorem Memory.below_ofBytes (cap i : Nat) (bs : List Byte) (h : i + bs.length ≤ cap) :
    (ofBytes i bs).below cap = true := by
  induction bs generalizing i with
  | nil => rfl
  | cons b rest ih =>
    simp only [List.length_cons] at h
    exact below_write (ih (i + 1) (by omega)) (by omega) b

/-- An array given whole reads as it was given. -/
theorem Memory.read_ofBytes (i j : Nat) (bs : List Byte) :
    (ofBytes i bs).read (i + j) = bs.getD j unwritten := by
  induction bs generalizing i j with
  | nil => rfl
  | cons b rest ih =>
    simp only [ofBytes]
    rw [read_write_from (wfFrom_ofBytes (i + 1) rest)]
    cases j with
    | zero => simp
    | succ j =>
      rw [if_neg (by omega), show i + (j + 1) = (i + 1) + j by omega, ih]
      simp

/-- Canonical arrays that read alike are equal data. -/
theorem Memory.eq_of_read_eq_from {lo : Nat} {m n : Memory} (hm : wfFrom lo m = true) (hn : wfFrom lo n = true)
    (h : ∀ i, read m i = read n i) : m = n := by
  induction m generalizing lo n with
  | nil =>
    cases n with
    | nil => rfl
    | cons c rest =>
      obtain ⟨k, b⟩ := c
      simp only [wfFrom, Bool.and_eq_true, decide_eq_true_eq, bne_iff_ne, ne_eq] at hn
      have := h k
      simp only [read, if_pos] at this
      exact absurd this.symm hn.1.2
  | cons c rest ih =>
    obtain ⟨k, b⟩ := c
    have hm' := hm
    simp only [wfFrom, Bool.and_eq_true, decide_eq_true_eq, bne_iff_ne, ne_eq] at hm
    cases n with
    | nil =>
      have := h k
      simp only [read, if_pos] at this
      exact absurd this hm.1.2
    | cons c' rest' =>
      obtain ⟨k', b'⟩ := c'
      have hn' := hn
      simp only [wfFrom, Bool.and_eq_true, decide_eq_true_eq, bne_iff_ne, ne_eq] at hn
      have hk : k = k' := by
        rcases Nat.lt_trichotomy k k' with hlt | heq | hgt
        · have hr : read ((k', b') :: rest') k = unwritten := by
            simp only [read, if_neg (show k' ≠ k by omega)]
            exact read_of_lt hn.2 (by omega)
          have := h k
          rw [hr] at this
          simp only [read, if_pos] at this
          exact absurd this hm.1.2
        · exact heq
        · have hr : read ((k, b) :: rest) k' = unwritten := by
            simp only [read, if_neg (show k ≠ k' by omega)]
            exact read_of_lt hm.2 (by omega)
          have := h k'
          rw [hr] at this
          simp only [read, if_pos] at this
          exact absurd this.symm hn.1.2
      subst hk
      have hb : b = b' := by have := h k; simpa [read] using this
      subst hb
      have : rest = rest' := by
        refine ih hm.2 hn.2 fun i => ?_
        by_cases hi : i ≤ k
        · rw [read_of_lt hm.2 (by omega), read_of_lt hn.2 (by omega)]
        · have := h i
          simpa [read, show k ≠ i by omega] using this
      rw [this]

/-- Canonical arrays that read alike are equal data. -/
theorem Memory.eq_of_read_eq {m n : Memory} (hm : m.wf = true) (hn : n.wf = true)
    (h : ∀ i, m.read i = n.read i) : m = n :=
  eq_of_read_eq_from hm hn h

end Sys2Proof.Machine
end

