-- ==== Sys2Proof/Laws/PerInstr.lean ====
section
/-! SUPPORT. Statements made per instruction. WordClass: a command's word has bit 31 clear and a stimulus's word has
it set, so that neither can be taken for the other (spec/30_encoding.md R116); a bus transaction has no word. -/
namespace Sys2Proof.Laws.WordClass

/-- The class of an instruction's frame. -/
def Statement (i : Instr) : Prop :=
  match encode i with
  | .bus _ => Machine.isCommand i = false
  | .word w => w.getLsbD 31 = !Machine.isCommand i

/-- Bit 31 of a word is the top bit of its `op`, whatever stands in bits 23:0. -/
theorem bit31_wordOf (op lo : Nat) (hop : op < 256) (hlo : lo < 2 ^ 24) :
    (wordOf op lo).getLsbD 31 = decide (128 ≤ op) := by
  unfold wordOf
  rw [BitVec.getLsbD_ofNat, Nat.testBit_eq_decide_div_mod_eq]
  simp only [Nat.reduceLT, decide_true, Bool.true_and, decide_eq_decide]
  omega

/-- One flag is below 2. -/
theorem flag_lt (b : Bool) : b.toNat < 2 := by cases b <;> decide

theorem rd (addr : Byte) (wdata : Word) : Statement (.rd addr wdata) := rfl

theorem wr (addr : Byte) (wdata : Word) : Statement (.wr addr wdata) := rfl

theorem nop : Statement .nop := bit31_wordOf _ _ (by decide) (by decide)

theorem rxfree : Statement .rxfree := bit31_wordOf _ _ (by decide) (by decide)

theorem rxflush : Statement .rxflush := bit31_wordOf _ _ (by decide) (by decide)

theorem rxcancel : Statement .rxcancel := bit31_wordOf _ _ (by decide) (by decide)

theorem putbyte (c : Byte) : Statement (.putbyte c) := by
  have h0 := c.isLt
  exact bit31_wordOf _ _ (by decide) (by omega)

theorem getbyte : Statement .getbyte := bit31_wordOf _ _ (by decide) (by decide)

theorem suspend (f : Bool) : Statement (.suspend f) := by
  have h0 := flag_lt f
  exact bit31_wordOf _ _ (by decide) (by omega)

theorem rxovfclr : Statement .rxovfclr := bit31_wordOf _ _ (by decide) (by decide)

theorem pulseStart (dir : Byte) (step : Byte) : Statement (.pulseStart dir step) := by
  have h0 := dir.isLt
  have h1 := step.isLt
  exact bit31_wordOf _ _ (by decide) (by omega)

theorem stepWake : Statement .stepWake := bit31_wordOf _ _ (by decide) (by decide)

theorem stepIdle : Statement .stepIdle := bit31_wordOf _ _ (by decide) (by decide)

theorem stepCycles : Statement .stepCycles := bit31_wordOf _ _ (by decide) (by decide)

theorem getLimits : Statement .getLimits := bit31_wordOf _ _ (by decide) (by decide)

theorem getControl : Statement .getControl := bit31_wordOf _ _ (by decide) (by decide)

theorem limitsEnable (f : Bool) : Statement (.limitsEnable f) := by
  have h0 := flag_lt f
  exact bit31_wordOf _ _ (by decide) (by omega)

theorem getProbe : Statement .getProbe := bit31_wordOf _ _ (by decide) (by decide)

theorem computePwm (ovr : Byte) : Statement (.computePwm ovr) := by
  have h0 := ovr.isLt
  exact bit31_wordOf _ _ (by decide) (by omega)

theorem setSpeed (duty : BitVec 16) : Statement (.setSpeed duty) := by
  have h0 := duty.isLt
  exact bit31_wordOf _ _ (by decide) (by omega)

theorem setState (ccw : Bool) (enable : Bool) (ovr : Byte) : Statement (.setState ccw enable ovr) := by
  have h0 := flag_lt ccw
  have h1 := flag_lt enable
  have h2 := ovr.isLt
  exact bit31_wordOf _ _ (by decide) (by omega)

theorem spnGetState : Statement .spnGetState := bit31_wordOf _ _ (by decide) (by decide)

theorem cfgApply : Statement .cfgApply := bit31_wordOf _ _ (by decide) (by decide)

theorem coolantSet (mist : Bool) (flood : Bool) : Statement (.coolantSet mist flood) := by
  have h0 := flag_lt mist
  have h1 := flag_lt flood
  exact bit31_wordOf _ _ (by decide) (by omega)

theorem coolantGet : Statement .coolantGet := bit31_wordOf _ _ (by decide) (by decide)

theorem delayMs (cb : Bool) (ms : BitVec 16) : Statement (.delayMs cb ms) := by
  have h0 := flag_lt cb
  have h1 := ms.isLt
  exact bit31_wordOf _ _ (by decide) (by omega)

theorem rxArrive (handled : Bool) (b : Byte) : Statement (.rxArrive handled b) := by
  have h0 := flag_lt handled
  have h1 := b.isLt
  exact bit31_wordOf _ _ (by decide) (by omega)

theorem lineTake : Statement .lineTake := bit31_wordOf _ _ (by decide) (by decide)

theorem txIrq : Statement .txIrq := bit31_wordOf _ _ (by decide) (by decide)

theorem putRetry (cont : Bool) : Statement (.putRetry cont) := by
  have h0 := flag_lt cont
  exact bit31_wordOf _ _ (by decide) (by omega)

theorem ptTick : Statement .ptTick := bit31_wordOf _ _ (by decide) (by decide)

theorem dbTick : Statement .dbTick := bit31_wordOf _ _ (by decide) (by decide)

theorem limIn (float : Byte) (level : Byte) : Statement (.limIn float level) := by
  have h0 := float.isLt
  have h1 := level.isLt
  exact bit31_wordOf _ _ (by decide) (by omega)

theorem ctlIn (float : BitVec 4) (level : BitVec 4) : Statement (.ctlIn float level) := by
  have h0 := float.isLt
  have h1 := level.isLt
  exact bit31_wordOf _ _ (by decide) (by omega)

theorem prbIn (float : Bool) (level : Bool) : Statement (.prbIn float level) := by
  have h0 := flag_lt float
  have h1 := flag_lt level
  exact bit31_wordOf _ _ (by decide) (by omega)

theorem stTick : Statement .stTick := bit31_wordOf _ _ (by decide) (by decide)

theorem msTick : Statement .msTick := bit31_wordOf _ _ (by decide) (by decide)

end Sys2Proof.Laws.WordClass
end

