-- ==== Sys2Proof/Laws/Pseudo.lean ====
section
/-! SUPPORT. What a turn of a WRITESTRING or WRITEBYTES can do: the HOST's read, its PUTBYTE, and a step of another
agent. -/
namespace Sys2Proof.Machine

/-- In a wait the HOST reads RESULT. -/
theorem putAndWait_read (todo : List Byte) (s : State) :
    putAndWait { todo := todo, waiting := true } s =
      .next ({ todo := todo, waiting := s.result == 2 }, { s with rdata := s.result }) := rfl

/-- Not in a wait, with nothing blocked, the HOST puts the next byte and begins to wait. -/
theorem putAndWait_put (b : Byte) (todo : List Byte) {s : State} (h : s.tx.blocked = false) :
    putAndWait { todo := b :: todo, waiting := false } s =
      .next ({ todo := todo, waiting := true }, putbyteBody b s) := by
  simp [putAndWait, PutRun.issues, PutRun.after, exec, execPutbyte, hostCommand, h]

/-- After a PUTBYTE, RESULT is 2 exactly if it waits; ERR is as before. -/
theorem putbyteBody_result (b : Byte) {s : State} (h : s.tx.blocked = false) :
    ((putbyteBody b s).result = 2 ↔ (putbyteBody b s).tx.blocked = true) ∧ (putbyteBody b s).err = s.err := by
  unfold putbyteBody
  split
  · simp [sendDirect, h]
  · split <;> simp [txEnqueue, h]

/-- What a step of another agent does to a PUTBYTE wait: nothing, or it ends the wait with RESULT other than 2, the
byte delivered or CB_BLOCK(0) delivered and ERR.TX_ABORT set. ERR.BUSY stays as it is, and a set TX_ABORT stays set. -/
theorem stimulus_wait {i : Instr} {s t : State} (hi : isHostStep i = false) (h : exec i s = .next t) :
    t.err.getLsbD 1 = s.err.getLsbD 1 ∧ (s.err.getLsbD 9 = true → t.err.getLsbD 9 = true) ∧
    ((t.tx.blocked = s.tx.blocked ∧ t.result = s.result ∧ t.tx.pend = s.tx.pend ∧ delivered i s = [] ∧
        t.cbTrace.count (.block false) = s.cbTrace.count (.block false)) ∨
     (s.tx.blocked = true ∧ t.tx.blocked = false ∧ t.result ≠ 2 ∧
       ((delivered i s = [s.tx.pend] ∧ t.cbTrace.count (.block false) = s.cbTrace.count (.block false)) ∨
        (delivered i s = [] ∧ t.err.getLsbD 9 = true ∧
          t.cbTrace.count (.block false) = s.cbTrace.count (.block false) + 1)))) := by
  cases i <;> try cases hi
  case rxArrive hd b =>
    simp only [exec, execRxArrive] at h; injection h with h; subst h
    unfold rxArriveEffect
    split
    · simp [delivered, issued]
    split
    · simp [delivered, issued, takeSnapshot]
    split <;> simp [delivered, issued, rxStore]
  case lineTake =>
    simp only [exec, execLineTake] at h; split at h <;> cases h
    simp [delivered, issued, lineTakeEffect]
  case txIrq =>
    simp only [exec, execTxIrq] at h; split at h <;> cases h
    unfold txIrqEffect; split <;> simp [delivered, issued, raise, Cause.bit, Cause.code]
  case putRetry c =>
    simp only [exec, execPutRetry] at h; split at h <;> cases h
    rename_i hb
    unfold putRetryEffect; split
    · rename_i hf; simp [delivered, issued, hb, returns, unblock, txEnqueue] at *; simp [hf]
    · rename_i hf
      simp at hf
      cases c <;> simp [delivered, issued, hb, hf, deliver, raise, returns, unblock, Cause.bit, Cause.code]
  case ptTick =>
    simp only [exec, execPtTick] at h; injection h with h; subst h
    unfold ptTickEffect
    split
    · unfold pulseMatch
      simp only []; split
      · split <;> simp [delivered, issued]
      · simp [delivered, issued]
    · simp [delivered, issued]
  case dbTick =>
    simp only [exec, execDbTick] at h; injection h with h; subst h
    unfold dbTickEffect
    split
    · simp only []; split <;> simp [delivered, issued, deliver]
    · simp [delivered, issued]
  case limIn =>
    simp only [exec, execLimIn] at h; injection h with h; subst h
    unfold limInEffect limitEdge; simp only []
    split
    · split <;> simp [delivered, issued, deliver]
    · simp [delivered, issued]
  case ctlIn =>
    simp only [exec, execCtlIn] at h; injection h with h; subst h
    unfold ctlInEffect; simp only []; split <;> simp [delivered, issued, deliver]
  case prbIn =>
    simp only [exec, execPrbIn] at h; injection h with h; subst h
    simp [delivered, issued]
  case stTick =>
    simp only [exec, execStTick] at h; injection h with h; subst h
    unfold stTickEffect; split
    · simp only []; (try split) <;> simp [delivered, issued, deliver]
    · simp [delivered, issued]
  case msTick =>
    simp only [exec, execMsTick] at h; injection h with h; subst h
    unfold msTickEffect; split
    · simp [delivered, issued]
    · simp only []; split <;> simp [delivered, issued, deliver]

end Sys2Proof.Machine
end

