-- ==== Sys2Proof/Laws/Ring.lean ====
section
/-! SUPPORT. Ring indices: masking is the remainder by the capacity, indices stay below it, and the bytes a buffer
holds (spec/10_state.md R24). -/
namespace Sys2Proof

theorem Params.rxCap_pos (p : Params) : 0 < p.rxCap := Nat.two_pow_pos _

theorem Params.txCap_pos (p : Params) : 0 < p.txCap := Nat.two_pow_pos _

theorem Params.rxMask_succ (p : Params) : p.rxMask + 1 = p.rxCap := by
  have := p.rxCap_pos
  unfold Params.rxMask
  omega

theorem Params.txMask_succ (p : Params) : p.txMask + 1 = p.txCap := by
  have := p.txCap_pos
  unfold Params.txMask
  omega

theorem Params.valid_iff (p : Params) : p.valid = true ↔
    (1 ≤ p.nAxes ∧ p.nAxes ≤ 8) ∧ (1 ≤ p.rxBits ∧ p.rxBits ≤ 31) ∧ (1 ≤ p.txBits ∧ p.txBits ≤ 31) ∧
      p.toolackByte ≠ p.canByte ∧ 1 ≤ p.debounceTicks.toNat ∧
      (1 ≤ p.ptTicksPerUs ∧ p.ptTicksPerUs ≤ 32767) ∧ 2 ≤ p.fPwm := by
  simp only [Params.valid, Bool.and_eq_true, decide_eq_true_eq]
  tauto

/-- A legal capacity is at least 2. -/
theorem Params.two_le_cap {p : Params} (h : p.valid = true) : 2 ≤ p.rxCap ∧ 2 ≤ p.txCap := by
  obtain ⟨-, ⟨hr, -⟩, ⟨ht, -⟩, -⟩ := p.valid_iff.mp h
  exact ⟨by simpa [Params.rxCap, Params.txCap] using Nat.pow_le_pow_right (show 0 < 2 by omega) hr,
    by simpa [Params.rxCap, Params.txCap] using Nat.pow_le_pow_right (show 0 < 2 by omega) ht⟩

namespace Machine

/-- Masking with capacity minus 1 is the remainder by the capacity. -/
theorem advance_eq_mod (k i : Nat) : advance (2 ^ k - 1) i = (i + 1) % 2 ^ k :=
  Nat.and_two_pow_sub_one_eq_mod _ _

theorem advance_rx (p : Params) (i : Nat) : advance p.rxMask i = (i + 1) % p.rxCap := advance_eq_mod _ _

theorem advance_tx (p : Params) (i : Nat) : advance p.txMask i = (i + 1) % p.txCap := advance_eq_mod _ _

theorem advance_rx_lt (p : Params) (i : Nat) : advance p.rxMask i < p.rxCap := by
  rw [advance_rx]; exact Nat.mod_lt _ p.rxCap_pos

theorem advance_tx_lt (p : Params) (i : Nat) : advance p.txMask i < p.txCap := by
  rw [advance_tx]; exact Nat.mod_lt _ p.txCap_pos

theorem occupied_eq_mod (k h t : Nat) : occupied h t (2 ^ k - 1) = (h + 2 ^ k - t) % 2 ^ k := by
  have : 0 < 2 ^ k := Nat.two_pow_pos k
  unfold occupied
  rw [Nat.and_two_pow_sub_one_eq_mod, Nat.sub_add_cancel (by omega)]

theorem occupied_rx (p : Params) (h t : Nat) : occupied h t p.rxMask = (h + p.rxCap - t) % p.rxCap :=
  occupied_eq_mod _ _ _

theorem occupied_tx (p : Params) (h t : Nat) : occupied h t p.txMask = (h + p.txCap - t) % p.txCap :=
  occupied_eq_mod _ _ _

/-- On indices below the capacity the masked difference needs no division. -/
theorem mod_sub_cases {h t c : Nat} (hh : h < c) (ht : t < c) :
    (h + c - t) % c = if t ≤ h then h - t else h + c - t := by
  split
  · rw [show h + c - t = (h - t) + c by omega, Nat.add_mod_right, Nat.mod_eq_of_lt (by omega)]
  · exact Nat.mod_eq_of_lt (by omega)

/-- Advancing an index below the capacity needs no division. -/
theorem mod_succ_cases {i c : Nat} (hi : i < c) : (i + 1) % c = if i + 1 = c then 0 else i + 1 := by
  split
  · next h => rw [h, Nat.mod_self]
  · exact Nat.mod_eq_of_lt (by omega)

@[simp] theorem window_zero (m : Memory) (mask t : Nat) : window m mask 0 t = [] := rfl

theorem window_succ (m : Memory) (mask n t : Nat) :
    window m mask (n + 1) t = m.read t :: window m mask n (advance mask t) := rfl

@[simp] theorem window_length (m : Memory) (mask n t : Nat) : (window m mask n t).length = n := by
  induction n generalizing t with
  | zero => rfl
  | succ n ih => rw [window_succ, List.length_cons, ih]

theorem rxFull_iff (s : State) : rxFull s = true ↔ advance s.par.rxMask s.rx.head = s.rx.tail := by
  simp [rxFull]

theorem txFull_iff (s : State) : txFull s = true ↔ advance s.par.txMask s.tx.head = s.tx.tail := by
  simp [txFull]

theorem rxEmpty_iff (s : State) : rxEmpty s = true ↔ s.rx.head = s.rx.tail := by simp [rxEmpty]

theorem txEmpty_iff (s : State) : txEmpty s = true ↔ s.tx.head = s.tx.tail := by simp [txEmpty]

/-! ## The bytes a buffer holds -/

/-- The bytes a window holds, index by index. -/
theorem window_eq_map (m : Memory) (k n t : Nat) (ht : t < 2 ^ k) :
    window m (2 ^ k - 1) n t = (List.range n).map fun j => m.read ((t + j) % 2 ^ k) := by
  induction n generalizing t with
  | zero => rfl
  | succ n ih =>
    rw [window_succ, advance_eq_mod, ih _ (Nat.mod_lt _ (Nat.two_pow_pos k)), List.range_succ_eq_map,
      List.map_cons, List.map_map]
    congr 1
    · rw [Nat.add_zero, Nat.mod_eq_of_lt ht]
    · refine List.map_congr_left fun j _ => ?_
      simp only [Function.comp_apply, Nat.mod_add_mod]
      congr 2
      omega

/-- A byte written at head, head then advanced, is added at the end of what a buffer that is not full holds. -/
theorem window_push {m : Memory} {k h t : Nat} (hm : m.wf = true) (hh : h < 2 ^ k) (ht : t < 2 ^ k)
    (hf : advance (2 ^ k - 1) h ≠ t) (v : Byte) :
    window (m.write h v) (2 ^ k - 1) (occupied (advance (2 ^ k - 1) h) t (2 ^ k - 1)) t =
      window m (2 ^ k - 1) (occupied h t (2 ^ k - 1)) t ++ [v] := by
  have hc : occupied (advance (2 ^ k - 1) h) t (2 ^ k - 1) = occupied h t (2 ^ k - 1) + 1 := by
    rw [advance_eq_mod] at hf ⊢
    rw [occupied_eq_mod, occupied_eq_mod, mod_sub_cases (Nat.mod_lt _ (Nat.two_pow_pos k)) ht,
      mod_sub_cases hh ht]
    rw [mod_succ_cases hh] at hf ⊢
    by_cases hw : h + 1 = 2 ^ k
    · simp only [hw, if_true] at hf ⊢
      split <;> split <;> omega
    · simp only [hw, if_false] at hf ⊢
      split <;> split <;> omega
  have ho : ∀ j, j ≤ occupied h t (2 ^ k - 1) →
      ((t + j) % 2 ^ k = h ↔ j = occupied h t (2 ^ k - 1)) := by
    intro j hj
    rw [occupied_eq_mod, mod_sub_cases hh ht] at hj ⊢
    split at hj
    · rw [Nat.mod_eq_of_lt (by omega)]; split <;> omega
    · next hlt =>
      rw [if_neg hlt]
      by_cases hw : t + j < 2 ^ k
      · rw [Nat.mod_eq_of_lt hw]; omega
      · rw [Nat.mod_eq_sub_mod (by omega), Nat.mod_eq_of_lt (by omega)]; omega
  rw [hc, window_eq_map _ _ _ _ ht, window_eq_map _ _ _ _ ht, List.range_succ, List.map_append]
  congr 1
  · refine List.map_congr_left fun j hj => ?_
    rw [Memory.read_write hm, if_neg]
    have := List.mem_range.mp hj
    rw [ho j (by omega)]
    omega
  · rw [List.map_singleton, Memory.read_write hm, if_pos ((ho _ (Nat.le_refl _)).mpr rfl)]

/-- What a buffer that is not empty holds starts with the byte at tail; advancing tail takes it away. -/
theorem window_pop {k h t : Nat} (m : Memory) (hh : h < 2 ^ k) (ht : t < 2 ^ k) (he : h ≠ t) :
    window m (2 ^ k - 1) (occupied h t (2 ^ k - 1)) t =
      m.read t :: window m (2 ^ k - 1) (occupied h (advance (2 ^ k - 1) t) (2 ^ k - 1)) (advance (2 ^ k - 1) t) := by
  have hc : occupied h t (2 ^ k - 1) = occupied h (advance (2 ^ k - 1) t) (2 ^ k - 1) + 1 := by
    rw [advance_eq_mod, occupied_eq_mod, occupied_eq_mod, mod_sub_cases hh ht,
      mod_sub_cases hh (Nat.mod_lt _ (Nat.two_pow_pos k)), mod_succ_cases ht]
    by_cases hw : t + 1 = 2 ^ k
    · simp only [hw, if_true]
      split <;> split <;> omega
    · simp only [hw, if_false]
      split <;> split <;> omega
  rw [hc, window_succ]

/-- A buffer whose indices agree holds nothing. -/
theorem window_empty (m : Memory) (k i : Nat) : window m (2 ^ k - 1) (occupied i i (2 ^ k - 1)) i = [] := by
  have h : occupied i i (2 ^ k - 1) = 0 := by
    rw [occupied_eq_mod, Nat.add_sub_cancel_left, Nat.mod_self]
  rw [h, window_zero]

/-- How many bytes a buffer holds is below its capacity. -/
theorem occupied_lt (k h t : Nat) : occupied h t (2 ^ k - 1) < 2 ^ k := by
  rw [occupied_eq_mod]; exact Nat.mod_lt _ (Nat.two_pow_pos k)

end Machine
end Sys2Proof
end

