-- ==== Sys2Proof/Tests/Slice0.lean ====
section
/-! SUPPORT. Tests: one word written out for every row of the encoding tables, ill-formed terms the checks refuse, one
or two single steps per instruction with results taken from the spec's examples and vectors, and for every statement
states and operands that meet its hypotheses. -/
namespace Sys2Proof.Tests

open Sys2Proof Sys2Proof.Machine

/-! ## Decoding: a word of each row, from spec/30_encoding.md R111, R112, R114, R117 -/

theorem test_decode_bus :
    decodeTableWord 48 0x01800000000 = some (.rd 0x18 0) ∧
    decodeTableWord 48 0x1640000000A = some (.wr 0x64 10) := by decide

theorem test_decode_serial :
    decodeTableWord 32 0x01000000 = some .rxfree ∧ decodeTableWord 32 0x02000000 = some .rxflush ∧
    decodeTableWord 32 0x03000000 = some .rxcancel ∧ decodeTableWord 32 0x0400006B = some (.putbyte 0x6B) ∧
    decodeTableWord 32 0x05000000 = some .getbyte ∧ decodeTableWord 32 0x06000001 = some (.suspend true) ∧
    decodeTableWord 32 0x06000000 = some (.suspend false) ∧ decodeTableWord 32 0x07000000 = some .rxovfclr := by
  decide

theorem test_decode_stepper :
    decodeTableWord 32 0x10000502 = some (.pulseStart 0b101 0b010) ∧
    decodeTableWord 32 0x11000000 = some .stepWake ∧ decodeTableWord 32 0x12000000 = some .stepIdle ∧
    decodeTableWord 32 0x13000000 = some .stepCycles := by decide

theorem test_decode_inputs :
    decodeTableWord 32 0x20000000 = some .getLimits ∧ decodeTableWord 32 0x21000000 = some .getControl ∧
    decodeTableWord 32 0x22000001 = some (.limitsEnable true) ∧ decodeTableWord 32 0x23000000 = some .getProbe := by
  decide

theorem test_decode_spindle :
    decodeTableWord 32 0x30000064 = some (.computePwm 100) ∧ decodeTableWord 32 0x310001C2 = some (.setSpeed 450) ∧
    decodeTableWord 32 0x32000164 = some (.setState false true 100) ∧
    decodeTableWord 32 0x32000200 = some (.setState true false 0) ∧
    decodeTableWord 32 0x33000000 = some .spnGetState := by decide

theorem test_decode_aux :
    decodeTableWord 32 0x00000000 = some .nop ∧ decodeTableWord 32 0x40000000 = some .cfgApply ∧
    decodeTableWord 32 0x41000002 = some (.coolantSet true false) ∧
    decodeTableWord 32 0x42000000 = some .coolantGet ∧ decodeTableWord 32 0x43010005 = some (.delayMs true 5) := by
  decide

theorem test_decode_stimuli :
    decodeTableWord 32 0x80000141 = some (.rxArrive true 0x41) ∧ decodeTableWord 32 0x81000000 = some .lineTake ∧
    decodeTableWord 32 0x82000000 = some .txIrq ∧ decodeTableWord 32 0x83000001 = some (.putRetry true) ∧
    decodeTableWord 32 0x84000000 = some .ptTick ∧ decodeTableWord 32 0x85000000 = some .dbTick := by decide

theorem test_decode_pin_stimuli :
    decodeTableWord 32 0x86000405 = some (.limIn 0b100 0b101) ∧
    decodeTableWord 32 0x87000809 = some (.ctlIn 0b1000 0b1001) ∧
    decodeTableWord 32 0x88000100 = some (.prbIn true false) ∧ decodeTableWord 32 0x89000000 = some .stTick ∧
    decodeTableWord 32 0x8A000000 = some .msTick := by decide

/-- Reserved bits, unassigned ops and numbers that are no frame decode to nothing (R113, R118, 93 U15). -/
theorem test_decode_refuses :
    decodeTableWord 32 0x01000001 = none ∧ decodeTableWord 32 0x08000000 = none ∧
    decodeTableWord 32 0x44000000 = none ∧ decodeTableWord 32 0x8B000000 = none ∧
    decodeTableWord 32 0x87000010 = none ∧ decodeTableWord 32 0x43020000 = none ∧
    decodeTableWord 48 0x20000000000 = none ∧ decodeTableWord 64 0 = none := by decide

/-! ## Well-formedness: one ill-formed term a check -/

theorem test_illformed_read : Instr.wellFormed (.rd 0x10 1) = false ∧ Instr.wellFormed (.rd 0x10 0) = true := by
  decide

theorem test_illformed_params :
    Params.standard.valid = true ∧
    Params.valid { Params.standard with nAxes := 0 } = false ∧
    Params.valid { Params.standard with nAxes := 9 } = false ∧
    Params.valid { Params.standard with rxBits := 0 } = false ∧
    Params.valid { Params.standard with rxBits := 32 } = false ∧
    Params.valid { Params.standard with txBits := 0 } = false ∧
    Params.valid { Params.standard with txBits := 32 } = false ∧
    Params.valid { Params.standard with toolackByte := 0x18 } = false ∧
    Params.valid { Params.standard with debounceTicks := 0 } = false ∧
    Params.valid { Params.standard with ptTicksPerUs := 0 } = false ∧
    Params.valid { Params.standard with ptTicksPerUs := 32768 } = false ∧
    Params.valid { Params.standard with fPwm := 1 } = false := by decide

/-! ## States the tests start from -/

/-- The next state of an instruction, if it answers one. -/
def after (i : Instr) (s : State) : Option State :=
  match exec i s with
  | .next t => some t
  | .fault _ => none
  | .refused _ => none

/-- The next state of a step, if it answers one. -/
def afterStep (s : State) : Option State :=
  match step s with
  | .next t => some t
  | .fault _ => none
  | .refused _ => none

/-- The shadow configuration of 43_spindle.md R241, with a pulse of 5 us, no delay, software debounce. -/
def shadow : ShadowConfig :=
  { ShadowConfig.zero with
    pulseUs := 5, pwmFreq := 5000, pwmMinPct := 10, pwmMaxPct := 90, rpmMin := 1000, rpmMax := 11000
    flags := 0b000110 }

/-- Reset, then the shadow configuration written. -/
def unapplied : State := { State.reset with cfg := shadow }

/-- The configuration of 43_spindle.md R241 applied: the values R241 gives, immediate mode. -/
def ready : State :=
  { unapplied with
    configured := true
    ac := { ActiveConfig.zero with widthTicks := 5, rpmMin := 1000, rpmMax := 11000, swDebounce := true,
                                   varSpeed := true }
    pw := { period := 200, offValue := 0, minValue := 20, maxValue := 180, gnum := 160, gden := 10000 } }

/-- `ready` in delayed mode: a delay of 3 ticks. -/
def readyDelayed : State := { ready with ac := { ready.ac with delayTicks := 3, delayed := true } }

/-- `ready` with an on/off-only spindle. -/
def readyOnOff : State := { ready with ac := { ready.ac with varSpeed := false } }

/-- A pulse in flight, one tick before its end (41_stepper.md R186's example). -/
def pulsing : State :=
  { ready with
    pe := { state := .pulsing, stepL := 0b011, dirL := 0b001, stash := 0 }
    pt := { run := true, cnt := 4, cmp := 5 } }

/-- A delayed pulse, one tick before its step outputs are written. -/
def waitingDelay : State :=
  { readyDelayed with
    pe := { state := .waitDelay, stepL := 0, dirL := 0b001, stash := 0b011 }
    pt := { run := true, cnt := 2, cmp := 3 } }

/-- Three bytes received: `rx.head` = 5, `rx.tail` = 2, the first 0x47 (40_serial.md R141 and R148's examples). -/
def received : State :=
  { State.reset with
    rx := { data := [(2, 0x47), (3, 0x31), (4, 0x0A)], head := 5, tail := 2, ovf := true, bkActive := false,
            suspended := false } }

/-- The receive buffer full: `rx.head` = 7, `rx.tail` = 0. -/
def receiveFull : State :=
  { State.reset with
    rx := { data := [(0, 0x61)], head := 7, tail := 0, ovf := false, bkActive := false, suspended := false } }

/-- A backup held: 'a', 'b' in the snapshot, the live buffer empty (40_serial.md R149's example). -/
def backedUp : State :=
  { State.reset with
    rx := { data := [(0, 0x61), (1, 0x62)], head := 4, tail := 4, ovf := false, bkActive := true, suspended := false }
    bk := { data := [(0, 0x61), (1, 0x62)], head := 2, tail := 0 } }

/-- Two bytes buffered for transmission, the transmitter idle (40_serial.md R151's example with one byte more). -/
def sending : State :=
  { State.reset with
    tx := { data := [(0, 0x41), (1, 0x42)], head := 2, tail := 0, irqEn := true, blocked := false, pend := 0,
            ovf := false } }

/-- The transmit buffer full and a PUTBYTE waiting (40_serial.md R146's example). -/
def waiting : State :=
  { State.reset with
    tx := { data := [(0, 0x41), (1, 0x42), (2, 0x43)], head := 3, tail := 0, irqEn := true, blocked := true,
            pend := 0x44, ovf := false }
    tdr := 0x40
    tdrFull := true }

/-- `waiting` after the transmit handler has taken a byte. -/
def waitingSpace : State := { waiting with tx := { waiting.tx with tail := 1 } }

/-- The transmit buffer full with nobody waiting. -/
def sendingFull : State := { waiting with tx := { waiting.tx with blocked := false } }

/-- `ready` with `pw.min` = `pw.max`, as CFG_PWM_MIN_PCT = CFG_PWM_MAX_PCT = 90 gives it (44_aux.md R270, R271). -/
def readyFlat : State := { ready with pw := { ready.pw with minValue := 180, gnum := 0 } }

/-- A settle window with one tick to go and the limit of axis 0 triggered (42_inputs_debounce.md R219's example). -/
def settling : State :=
  { ready with limDrv := [.high, .low, .low], db := { state := .counting, cnt := 1 } }

/-- Limit detection armed, all inputs at rest. -/
def armed : State := { ready with db := { state := .armed, cnt := 0 } }

/-- Limit detection armed with software debounce off. -/
def armedAtOnce : State := { armed with ac := { ready.ac with swDebounce := false } }

/-! ## Single steps -/

/-- The reset state is the reset of the standard parameters with every unspecified value zero. -/
theorem test_reset_is_reset : State.reset = resetWith Params.standard Unspecified.zero := by decide

/-- With no input the machine waits unchanged (assumption 5). -/
theorem test_step_waits : afterStep State.reset = some State.reset := by decide

/-- 43_spindle.md R241 and 44_aux.md R271's example: CFG_APPLY gives the values R241 lists. -/
theorem test_cfgApply : after .cfgApply unapplied = some { ready with result := 1 } := by decide

/-- 44_aux.md R270's example: a pulse width of 0 is refused. -/
theorem test_cfgApply_invalid :
    after .cfgApply { unapplied with cfg := { shadow with pulseUs := 0 } } =
      some { unapplied with cfg := { shadow with pulseUs := 0 }, err := 0b1000 } := by decide

theorem test_rd_status : (after (.rd 0x10 0) ready).map (·.rdata) = some 0x00010000 := by decide

theorem test_rd_unmapped : after (.rd 0x2C 0) State.reset = some { State.reset with err := 0x080 } := by decide

theorem test_wr_masks_named_bits :
    (after (.wr 0x80 0xFFFFFFFF) State.reset).map (·.cfg.flags) = some 0b110111 := by decide

theorem test_wr_illegal_command :
    after (.wr 0x00 0x80000041) State.reset = some { State.reset with err := 0x001 } := by decide

theorem test_nop_busy : after .nop waiting = some { waiting with err := 0x002 } := by decide

/-- 40_serial.md R141's example. -/
theorem test_rxfree : (after .rxfree received).map (·.result) = some 5 := by decide

/-- 40_serial.md R142's example: RXFREE after RXFLUSH returns 8. -/
theorem test_rxflush : ((after .rxflush received).bind (after .rxfree)).map (·.result) = some 8 := by decide

/-- 40_serial.md R143's example. -/
theorem test_rxcancel :
    (after .rxcancel received).map (fun t => (t.rx.data.read 5, t.rx.tail, t.rx.head)) = some (0x18, 5, 6) := by decide

theorem test_rxcancel_in_backup : after .rxcancel backedUp = some { backedUp with err := 0x040 } := by decide

/-- 40_serial.md R144's example. -/
theorem test_putbyte_direct :
    after (.putbyte 0x41) State.reset = some { State.reset with tdr := 0x41, tdrFull := true, result := 1 } := by
  decide

theorem test_putbyte_full :
    (after (.putbyte 0x44) sendingFull).map (fun t => (t.result, t.tx.blocked, t.tx.pend, t.tx.head)) =
      some (2, true, 0x44, 3) := by decide

/-- 40_serial.md R148's example. -/
theorem test_getbyte : (after .getbyte received).map (fun t => (t.result, t.rx.tail)) = some (0x47, 3) := by decide

theorem test_getbyte_suspended :
    (after .getbyte { received with rx := { received.rx with suspended := true } }).map
      (fun t => (t.result, t.rx.tail)) = some (0xFFFFFFFF, 2) := by decide

/-- 40_serial.md R149's example. -/
theorem test_suspend_restores :
    (after (.suspend false) backedUp).map (fun t => (t.rx.head, t.rx.tail, t.rx.bkActive, t.result)) =
      some (2, 0, false, 1) := by decide

/-- 40_serial.md R153's example. -/
theorem test_rxovfclr : (after .rxovfclr received).map (fun t => (t.result, t.rx.ovf)) = some (1, false) := by decide

/-- 41_stepper.md R184's example, without its inverted pins. -/
theorem test_pulseStart :
    (after (.pulseStart 0b001 0b011) ready).map (fun t => (t.pe, t.pt)) =
      some ({ state := .pulsing, stepL := 0b011, dirL := 0b001, stash := 0 }, { run := true, cnt := 0, cmp := 5 }) := by
  decide

/-- 41_stepper.md R185's example: the commanded duty 450 is programmed. -/
theorem test_pulseStart_refresh :
    (after (.pulseStart 0 1) { ready with spnPwmCmd := 450, sp := { ready.sp with applied := 300 } }).map
      (fun t => (t.pwm.duty, t.sp.applied)) = some (450, 450) := by decide

/-- 41_stepper.md R186's example: the fifth tick ends the pulse. -/
theorem test_ptTick_ends_pulse :
    (after .ptTick pulsing).map (fun t => (t.pt.cnt, t.pt.run, t.pe.stepL, t.pe.state)) =
      some (5, false, 0, .idle) := by decide

theorem test_ptTick_delay_match :
    (after .ptTick waitingDelay).map (fun t => (t.pt, t.pe.stepL, t.pe.state)) =
      some ({ run := true, cnt := 3, cmp := 8 }, 0b011, .pulsing) := by decide

/-- 41_stepper.md R188's example. -/
theorem test_stepWake :
    (after .stepWake { State.reset with st := { en := false, period := 3, cnt := 7 } }).map (·.st) =
      some { en := true, period := 3, cnt := 0 } := by decide

theorem test_stepIdle :
    (after .stepIdle { State.reset with st := { en := true, period := 3, cnt := 2 } }).map (·.st) =
      some { en := false, period := 3, cnt := 2 } := by decide

/-- 41_stepper.md R191's example. -/
theorem test_stepCycles : (after .stepCycles { State.reset with arg0 := 1000 }).map (·.st.period) = some 1000 := by
  decide

/-- 41_stepper.md R190's example. -/
theorem test_stTick :
    (after .stTick { State.reset with st := { en := true, period := 3, cnt := 2 } }).map
      (fun t => (t.st.cnt, t.ipr, t.cbTrace)) = some (0, 0b0001, [.step]) := by decide

/-- 42_inputs_debounce.md R212's example: drives 1, Z, 0, pull 0b010, invert 0b010. -/
theorem test_getLimits :
    (after .getLimits { State.reset with
      limDrv := [.high, .float, .low], ac := { ActiveConfig.zero with limPull := 0b010, limInv := 0b010 } }).map
      (·.result) = some 1 := by decide

/-- 42_inputs_debounce.md R214's example: safety-door before feed-hold. -/
theorem test_getControl :
    (after .getControl { State.reset with ctlDrv := [.low, .high, .low, .high] }).map (·.result) = some 0b1000 := by
  decide

/-- 42_inputs_debounce.md R215's example. -/
theorem test_limitsEnable_cancels :
    (after (.limitsEnable false) settling).map (·.db) = some { state := .idle, cnt := 0 } := by decide

/-- 44_aux.md R276's example: undriven, pull 1, invert 1. -/
theorem test_getProbe :
    (after .getProbe { State.reset with
      prbDrv := .float, ac := { ActiveConfig.zero with prbPull := true, prbInv := true } }).map (·.result) = some 0 := by
  decide

/-- 42_inputs_debounce.md R216's example. -/
theorem test_limIn_opens_window :
    (after (.limIn 0 0b001) armed).map (·.db) = some { state := .counting, cnt := 3 } := by decide

/-- 42_inputs_debounce.md R219's example. -/
theorem test_dbTick_confirms :
    (after .dbTick settling).map (fun t => (t.db, t.limitEvt, t.ipr, t.cbTrace)) =
      some ({ state := .armed, cnt := 0 }, 0b001, 0b0010, [.limit 0b001]) := by decide

/-- 42_inputs_debounce.md R222's example, and its remark on reset held asserted. -/
theorem test_ctlIn :
    (after (.ctlIn 0 0b0010) State.reset).map (fun t => (t.controlEvt, t.ipr)) = some (0b0010, 0b0100) ∧
    (after (.ctlIn 0 0b0011) { State.reset with ctlDrv := [.high, .low, .low, .low] }).map (·.cbTrace) =
      some [.control 0b0001] := by decide

theorem test_prbIn : (after (.prbIn true true) State.reset).map (·.prbDrv) = some .float := by decide

/-- 43_spindle.md R248's examples. -/
theorem test_computePwm :
    computePwm ready 6000 100 = (100, 6000) ∧ computePwm ready 6000 50 = (52, 3000) ∧
    computePwm ready 11000 100 = (179, 11000) ∧ computePwm ready 500 100 = (20, 1000) ∧
    computePwm ready 0 100 = (0, 0) ∧ computePwm ready 6000 0 = (0, 0) := by decide

theorem test_computePwm_results :
    (after (.computePwm 100) { ready with arg0 := 6000 }).map (fun t => (t.result, t.result1, t.sp.effRpm)) =
      some (100, 6000, 6000) := by decide

/-- 43_spindle.md R250's example, both halves. -/
theorem test_setSpeed :
    (after (.setSpeed 100) ready).map (fun t => (t.sp.enabled, t.pwm, t.sp.applied, t.spnPwmCmd)) =
      some (true, { en := true, duty := 100 }, 100, 100) ∧
    ((after (.setSpeed 100) ready).bind (after (.setSpeed 0))).map
      (fun t => (t.sp.enabled, t.pwm, t.sp.applied, t.spnPwmCmd)) =
      some (true, { en := false, duty := 100 }, 0, 0) := by decide

/-- 43_spindle.md R252's example. -/
theorem test_setState :
    (after (.setState true true 50) { ready with arg0 := 6000 }).map
      (fun t => (t.sp.ccw, t.sp.effRpm, t.sp.enabled, t.pwm, t.result, t.result1)) =
      some (true, 3000, true, { en := true, duty := 52 }, 52, 3000) := by decide

/-- 43_spindle.md R253's example. -/
theorem test_spnGetState :
    ((after (.setState true true 50) { ready with arg0 := 6000 }).bind (after .spnGetState)).map (·.result) =
      some 0b111 := by decide

/-- 44_aux.md R274's example: the flood pin is inverted. -/
theorem test_coolantSet :
    (after (.coolantSet false true) { State.reset with ac := { ActiveConfig.zero with coolInv := 0b01 } }).map
      (fun t => (floodPin t, mistPin t, t.cl)) = some (false, false, { flood := true, mist := false }) := by decide

theorem test_coolantGet :
    (after .coolantGet { State.reset with cl := { flood := false, mist := true } }).map (·.result) = some 2 := by decide

/-- 44_aux.md R279 and R280's example. -/
theorem test_delayMs_msTick :
    (after (.delayMs true 2) State.reset).map (·.dl) = some { cnt := 2, cb := true } ∧
    (((after (.delayMs true 2) State.reset).bind (after .msTick)).bind (after .msTick)).map
      (fun t => (t.dl, t.ipr, t.cbTrace)) = some ({ cnt := 0, cb := false }, 0b1000, [.delay]) := by decide

/-- 40_serial.md R150's example. -/
theorem test_rxArrive_stores :
    (after (.rxArrive false 0x63) { State.reset with rx := { State.reset.rx with head := 2 } }).map
      (fun t => (t.rx.data.read 2, t.rx.head)) = some (0x63, 3) := by decide

/-- 40_serial.md R150: a full buffer drops even a tool-acknowledge byte. -/
theorem test_rxArrive_full :
    after (.rxArrive false 0xA3) receiveFull =
      some { receiveFull with rx := { receiveFull.rx with ovf := true } } := by decide

/-- 40_serial.md R151's example. -/
theorem test_txIrq_last_byte :
    (after .txIrq { sending with tx := { sending.tx with tail := 1 } }).map
      (fun t => (t.tdr, t.tdrFull, t.tx.tail, t.tx.irqEn)) = some (0x42, true, 2, false) := by decide

/-- 40_serial.md R152's example, and not enabled with an empty register. -/
theorem test_lineTake :
    (after .lineTake { State.reset with tdr := 0x41, tdrFull := true }).map (fun t => (t.txLine, t.tdrFull)) =
      some ([0x41], false) ∧ after .lineTake State.reset = none := by decide

/-- 40_serial.md R146's example: full, nothing but the question; with space, the byte is committed. -/
theorem test_putRetry :
    after (.putRetry true) waiting = some { waiting with cbTrace := [.block true] } ∧
    (after (.putRetry true) waitingSpace).map
      (fun t => (t.tx.data.read 3, t.tx.head, t.tx.blocked, t.result)) = some (0x44, 0, false, 1) := by decide

/-- 40_serial.md R146: "do not block" leaves the buffer as it was. -/
theorem test_putRetry_abort :
    after (.putRetry false) waiting =
      some { waiting with
        tx := { waiting.tx with blocked := false }, result := 0, err := 0x200, cbTrace := [.block false] } := by decide

/-- 40_serial.md R147's example, and the corner cases: the first 0x00 stops WRITESTRING and not WRITEBYTES. -/
theorem test_writeString :
    (writeString [0x6F, 0x6B]).todo = [0x6F, 0x6B] ∧ (writeString [0x6F, 0x00, 0x6B]).todo = [0x6F] ∧
    (writeString []).todo = [] ∧ ∀ past : Nat → Byte, (writeBytes [0x6F, 0x00, 0x6B] 2 past).todo = [0x6F, 0x00] ∧
      (writeBytes [0x6F] 2 past).todo = [0x6F, past 1] ∧ (writeBytes [0x6F] 0 past).todo = [] :=
  ⟨by decide, by decide, by decide, fun _ => ⟨rfl, rfl, rfl⟩⟩

/-- 40_serial.md R147: a byte put into a full buffer; the HOST reads 2 until the wait is over, and only then is
free. -/
theorem test_putAndWait_waits :
    ∃ r t, runTurns [.host, .host, .other .lineTake, .other .txIrq, .host] { todo := [0x44, 0x45], waiting := false }
      sendingFull = .next (r, t) ∧ r = { todo := [0x45], waiting := true } ∧ t.rdata = 2 ∧ t.tx.blocked = true :=
  ⟨_, _, rfl, by decide⟩

/-! ## A placed word is what the next step runs -/

theorem test_step_runs_placed_word :
    afterStep (State.reset.withFetchWord 32 0x04000041) =
      some { State.reset with tdr := 0x41, tdrFull := true, result := 1 } ∧
    (afterStep (State.reset.withFetchWord 48 0x10400001770)).map (·.arg0) = some 6000 := by decide

/-! ## The hypotheses of the statements can be met

Each theorem gives states and operands that meet the hypotheses of the statement it names, clause by clause. -/

/-- The buffers of the states above are canonical, with indices below the capacities. -/
theorem buffers_ok : BufferInv State.reset ∧ BufferInv received ∧ BufferInv receiveFull ∧ BufferInv backedUp ∧
    BufferInv sending ∧ BufferInv waiting ∧ BufferInv waitingSpace ∧ BufferInv sendingFull := by
  refine ⟨?_, ?_, ?_, ?_, ?_, ?_, ?_, ?_⟩ <;> constructor <;> decide

theorem config_ok : ConfigInv ready ∧ ConfigInv readyDelayed ∧ ConfigInv pulsing ∧ ConfigInv waitingDelay ∧
    ConfigInv readyFlat := by
  refine ⟨?_, ?_, ?_, ?_, ?_⟩ <;> constructor <;> decide

theorem pulse_ok : PulseInv ready ∧ PulseInv pulsing ∧ PulseInv waitingDelay := by
  refine ⟨?_, ?_, ?_⟩ <;> constructor <;> decide

theorem widths_ok : WidthInv State.reset ∧ WidthInv settling := by
  refine ⟨?_, ?_⟩ <;> constructor <;> decide

theorem witness_EncodeInvertsDecode :
    decode (.word 0x04000041) = .ok (.putbyte 0x41) ∧ decode (.bus 0x10400001770) = .ok (.wr 0x04 6000) ∧
    decode (.bus 0x01000000005) = .ok (.rd 0x10 5) := ⟨rfl, rfl, rfl⟩

theorem witness_IllegalWordsRefused :
    State.reset.tx.blocked = false ∧ decodeCommand 0x08000000 = none ∧ decodeCommand 0x44000000 = none ∧
    reservedBits 0x43 = some 0x00FE0000 ∧ decodeCommand 0x43020000 = none ∧ decodeCommand 0x4301FFFF ≠ none := by
  decide

theorem witness_StepRunsDecodedInstruction :
    ({ State.reset with inbox := [.frame (.word 0x05000000)] } : State).inbox = .frame (.word 0x05000000) :: [] ∧
    decode (.word 0x05000000) = .ok .getbyte ∧ Instr.wellFormed .getbyte = true := ⟨rfl, rfl, rfl⟩

theorem witness_WriteToCmdRunsCommand :
    isCommand (.delayMs true 5) = true ∧ encode (.delayMs true 5) = .word 0x43010005 := by decide

theorem witness_StepsExactlyWhenEnabled :
    enabled .nop State.reset = true ∧ enabled .lineTake State.reset = false ∧ enabled .txIrq sending = true ∧
    enabled .txIrq waiting = false ∧ enabled (.putRetry true) waiting = true ∧
    enabled (.putRetry true) sending = false := by decide

theorem witness_CommandsRefusedBeforeTheirBody :
    waiting.tx.blocked = true ∧ isCommand .nop = true ∧ State.reset.tx.blocked = false ∧
    State.reset.configured = false := by decide

/-- The ends of each unmapped range are unmapped, the addresses beside them are not, and no read-only address is. -/
theorem witness_BadAccessesSetBusError :
    (∀ a ∈ [0x01, 0x02, 0x03, 0x2C, 0x3F, 0x84, 0x8F, 0xBC, 0xBF, 0xE4, 0xFF], unmappedAddress a) ∧
    (∀ a ∈ [0x00, 0x28, 0x40, 0x80, 0x90, 0xB8, 0xC0, 0xE0], ¬ unmappedAddress a) ∧
    (∀ a ∈ readOnlyAddresses, ¬ unmappedAddress a.toNat) ∧ 0x08 ∈ readOnlyAddresses ∧ 0xE0 ∈ readOnlyAddresses ∧
    ({ State.reset with inbox := [.offWidth false] } : State).inbox = .offWidth false :: [] ∧
    ({ State.reset with inbox := [.offWidth true] } : State).inbox = .offWidth true :: [] := by
  simp only [unmappedAddress]
  decide

theorem witness_ReadsReturnRegisters :
    (0x00, 0) ∈ readTable State.reset ∧ (0xE0, 5) ∈ readTable pulsing ∧ (0x04, 0) ∈ readTable State.reset := by decide

theorem witness_PinMirrorsReadPins :
    settling.par.nAxes ≤ 8 ∧ WidthInv settling ∧ 2 < settling.par.nAxes ∧ settling.par.nAxes ≤ 3 ∧
    settling.limDrv[0]? = some .high ∧ settling.limDrv[2]? = some .low ∧ settling.ctlDrv[3]? = some .low :=
  ⟨by decide, widths_ok.2, by decide, by decide, by decide, by decide, by decide⟩

theorem witness_WritesStoreNamedBits :
    (0x04, 0xFFFFFFFF) ∈ writeTable Params.standard ∧ (0x40, 0x7) ∈ writeTable Params.standard ∧
    (0x80, 0x37) ∈ writeTable Params.standard := by decide

theorem witness_RxFreeCountsFreeSlots :
    (State.reset.par.valid = true ∧ BufferInv State.reset ∧ State.reset.tx.blocked = false ∧
      State.reset.rx.head = State.reset.rx.tail) ∧
    (BufferInv receiveFull ∧ receiveFull.tx.blocked = false ∧
      (receiveFull.rx.head + 1) % receiveFull.par.rxCap = receiveFull.rx.tail) :=
  ⟨⟨by decide, buffers_ok.1, by decide, by decide⟩, buffers_ok.2.2.1, by decide, by decide⟩

theorem witness_FlushAndOverflowClear : received.tx.blocked = false := by decide

/-- Both clauses: no backup and a backup held. -/
theorem witness_RxCancelLeavesCanByte :
    (received.par.valid = true ∧ BufferInv received ∧ received.tx.blocked = false ∧ received.rx.bkActive = false) ∧
    (backedUp.par.valid = true ∧ BufferInv backedUp ∧ backedUp.tx.blocked = false ∧ backedUp.rx.bkActive = true) :=
  ⟨⟨by decide, buffers_ok.2.1, by decide, by decide⟩, by decide, buffers_ok.2.2.2.1, by decide, by decide⟩

theorem witness_GetByteTakesOldest :
    (BufferInv received ∧ received.tx.blocked = false ∧ received.rx.suspended = false ∧
      received.rx.head ≠ received.rx.tail) ∧
    (BufferInv State.reset ∧ State.reset.tx.blocked = false ∧ State.reset.rx.head = State.reset.rx.tail) :=
  ⟨⟨buffers_ok.2.1, by decide, by decide, by decide⟩, buffers_ok.1, by decide, by decide⟩

theorem witness_SuspendAndRestore :
    (received.tx.blocked = false ∧ received.rx.bkActive = false) ∧
    (backedUp.tx.blocked = false ∧ backedUp.rx.bkActive = true) := by decide

theorem witness_ReceiveHandlerOrder :
    (BufferInv receiveFull ∧ (receiveFull.rx.head + 1) % receiveFull.par.rxCap = receiveFull.rx.tail) ∧
    (BufferInv received ∧ (received.rx.head + 1) % received.par.rxCap ≠ received.rx.tail ∧
      received.rx.bkActive = false ∧ 0xA3 = received.par.toolackByte ∧ 0x63 ≠ received.par.toolackByte) ∧
    (BufferInv backedUp ∧ (backedUp.rx.head + 1) % backedUp.par.rxCap ≠ backedUp.rx.tail ∧
      backedUp.rx.bkActive = true) :=
  ⟨⟨buffers_ok.2.2.1, by decide⟩, ⟨buffers_ok.2.1, by decide⟩, buffers_ok.2.2.2.1, by decide⟩

theorem witness_PutByteThreeWays :
    (BufferInv State.reset ∧ State.reset.tx.blocked = false ∧ State.reset.tx.head = State.reset.tx.tail ∧
      State.reset.tdrFull = false) ∧
    (BufferInv sendingFull ∧ sendingFull.tx.blocked = false ∧
      ¬ (sendingFull.tx.head = sendingFull.tx.tail ∧ sendingFull.tdrFull = false) ∧
      (sendingFull.tx.head + 1) % sendingFull.par.txCap = sendingFull.tx.tail) ∧
    (BufferInv sending ∧ sending.tx.blocked = false ∧
      ¬ (sending.tx.head = sending.tx.tail ∧ sending.tdrFull = false) ∧
      (sending.tx.head + 1) % sending.par.txCap ≠ sending.tx.tail) :=
  ⟨⟨buffers_ok.1, by decide⟩, ⟨buffers_ok.2.2.2.2.2.2.2, by decide⟩, buffers_ok.2.2.2.2.1, by decide⟩

theorem witness_PutRetryTurn :
    (BufferInv waitingSpace ∧ waitingSpace.tx.blocked = true ∧
      (waitingSpace.tx.head + 1) % waitingSpace.par.txCap ≠ waitingSpace.tx.tail) ∧
    (BufferInv waiting ∧ waiting.tx.blocked = true ∧
      (waiting.tx.head + 1) % waiting.par.txCap = waiting.tx.tail) :=
  ⟨⟨buffers_ok.2.2.2.2.2.2.1, by decide⟩, buffers_ok.2.2.2.2.2.1, by decide⟩

theorem witness_TransmitHandlerAndLine :
    (BufferInv sending ∧ sending.tx.irqEn = true ∧ sending.tdrFull = false ∧ sending.tx.head ≠ sending.tx.tail) ∧
    (∃ s : State, BufferInv s ∧ s.tx.irqEn = true ∧ s.tdrFull = false ∧ s.tx.head = s.tx.tail) ∧
    (BufferInv waiting ∧ waiting.tdrFull = true) :=
  ⟨⟨buffers_ok.2.2.2.2.1, by decide⟩,
    ⟨{ sending with tx := { sending.tx with tail := 2 } }, by constructor <;> decide, by decide⟩,
    buffers_ok.2.2.2.2.2.1, by decide⟩

/-- A step of each kind TransmitStreamConserved speaks of: a byte delivered direct, through the wait, and none. -/
theorem witness_TransmitStreamConserved :
    (BufferInv State.reset ∧ ∃ t, exec (.putbyte 0x41) State.reset = .next t ∧
      delivered (.putbyte 0x41) State.reset = [0x41]) ∧
    (BufferInv waitingSpace ∧ ∃ t, exec (.putRetry true) waitingSpace = .next t ∧
      delivered (.putRetry true) waitingSpace = [0x44]) ∧
    (BufferInv sending ∧ ∃ t, exec .txIrq sending = .next t) :=
  ⟨⟨buffers_ok.1, _, rfl, by decide⟩, ⟨buffers_ok.2.2.2.2.2.2.1, _, rfl, by decide⟩, buffers_ok.2.2.2.2.1, _, rfl⟩

theorem witness_ReceiveStreamConserved :
    (BufferInv received ∧ ∃ t, exec .getbyte received = .next t ∧ issued .getbyte ≠ .rxflush ∧
      issued .getbyte ≠ .rxcancel ∧ ∀ f, issued .getbyte ≠ .suspend f) ∧
    (∃ t, exec (.rxArrive false 0x63) received = .next t ∧ 0x63 ≠ received.par.toolackByte) :=
  ⟨⟨buffers_ok.2.1, _, rfl, by decide⟩, _, rfl, by decide⟩

theorem witness_BackupProtocolRestores :
    BufferInv received ∧ received.tx.blocked = false ∧ received.rx.bkActive = false ∧
    (received.rx.head + 1) % received.par.rxCap ≠ received.rx.tail := ⟨buffers_ok.2.1, by decide⟩

/-- A step that moves each index. -/
theorem witness_RingIndexWriters :
    (∃ t, exec (.rxArrive false 0x63) received = .next t ∧ t.rx.head ≠ received.rx.head) ∧
    (∃ t, exec .getbyte received = .next t ∧ t.rx.tail ≠ received.rx.tail) ∧
    (∃ t, exec (.putbyte 0x43) sending = .next t ∧ t.tx.head ≠ sending.tx.head) ∧
    (∃ t, exec .txIrq sending = .next t ∧ t.tx.tail ≠ sending.tx.tail) :=
  ⟨⟨_, rfl, by decide⟩, ⟨_, rfl, by decide⟩, ⟨_, rfl, by decide⟩, _, rfl, by decide⟩

/-- Two bytes put at once; a byte put after a wait; a byte aborted, with what the other agents do between. -/
theorem witness_StringsExpandToPutBytes :
    (BufferInv State.reset ∧ State.reset.tx.blocked = false ∧
      ∃ r t, runTurns [.host, .host, .host, .host] { todo := [0x6F, 0x6B], waiting := false } State.reset =
        .next (r, t) ∧ r = { todo := [], waiting := false } ∧ outStream t = [0x6F, 0x6B]) ∧
    (BufferInv sendingFull ∧ sendingFull.tx.blocked = false ∧
      (∀ i, Turn.other i ∈ [Turn.host, .host, .other .lineTake, .other .txIrq, .other (.putRetry true), .host] →
        isHostStep i = false) ∧
      ∃ r t, runTurns [.host, .host, .other .lineTake, .other .txIrq, .other (.putRetry true), .host]
          { todo := [0x44], waiting := false } sendingFull = .next (r, t) ∧
        r = { todo := [], waiting := false } ∧ t.err.getLsbD 9 = false) ∧
    ((∀ i, Turn.other i ∈ [Turn.host, .other (.putRetry false), .host] → isHostStep i = false) ∧
      ∃ r t, runTurns [.host, .other (.putRetry false), .host] { todo := [0x44], waiting := false } sendingFull =
        .next (r, t) ∧ r.waiting = false ∧ t.err.getLsbD 9 = true ∧
        t.cbTrace.count (.block false) = sendingFull.cbTrace.count (.block false) + 1) := by
  refine ⟨⟨buffers_ok.1, by decide, _, _, rfl, by decide, by decide⟩,
    ⟨buffers_ok.2.2.2.2.2.2.2, by decide, ?_, _, _, rfl, by decide, by decide⟩,
    ?_, _, _, rfl, by decide, by decide⟩ <;>
  · intro i h
    simp only [List.mem_cons, List.not_mem_nil, or_false, reduceCtorEq, false_or, Turn.other.injEq] at h
    rcases h with rfl | rfl | rfl <;> rfl

theorem witness_PulseStartBeginsPulse :
    (State.reset.tx.blocked = false ∧ State.reset.configured = false) ∧
    (pulsing.tx.blocked = false ∧ pulsing.configured = true ∧ pulsing.pe.state ≠ .idle) ∧
    (ready.tx.blocked = false ∧ ready.configured = true ∧ ready.pe.state = .idle ∧ ready.ac.delayed = false) ∧
    (readyDelayed.configured = true ∧ readyDelayed.pe.state = .idle ∧ readyDelayed.ac.delayed = true) := by decide

theorem witness_PulseTimerTick :
    ready.pt.run = false ∧ (waitingDelay.pt.run = true ∧ waitingDelay.pt.cnt + 1 = waitingDelay.pt.cmp ∧
      waitingDelay.pe.state = .waitDelay) ∧
    (pulsing.pt.run = true ∧ pulsing.pt.cnt + 1 = pulsing.pt.cmp ∧ pulsing.pe.state = .pulsing) ∧
    (∃ s : State, s.pt.run = true ∧ s.pt.cnt + 1 ≠ s.pt.cmp) :=
  ⟨by decide, by decide, by decide, { pulsing with pt := { run := true, cnt := 3, cmp := 5 } }, by decide⟩

theorem witness_StepTimerSteps :
    State.reset.tx.blocked = false ∧ State.reset.st.en = false ∧
    (∃ s : State, s.st.en = true ∧ (s.st.cnt + 1).toNat < s.st.period.toNat) ∧
    (∃ s : State, s.st.en = true ∧ s.st.period.toNat ≤ (s.st.cnt + 1).toNat) :=
  ⟨by decide, by decide, ⟨{ State.reset with st := { en := true, period := 3, cnt := 1 } }, by decide⟩,
    { State.reset with st := { en := true, period := 3, cnt := 2 } }, by decide⟩

theorem witness_PulseWidthIsExact :
    (ready.tx.blocked = false ∧ ready.configured = true ∧ ConfigInv ready ∧ ready.pe.state = .idle ∧
      ready.pe.stepL = 0 ∧ ready.ac.delayed = false ∧ 5 ≤ ready.ac.widthTicks.toNat) ∧
    (readyDelayed.tx.blocked = false ∧ readyDelayed.configured = true ∧ ConfigInv readyDelayed ∧
      readyDelayed.pe.state = .idle ∧ readyDelayed.pe.stepL = 0 ∧ readyDelayed.ac.delayed = true ∧
      8 ≤ readyDelayed.ac.delayTicks.toNat + readyDelayed.ac.widthTicks.toNat) :=
  ⟨⟨by decide, by decide, config_ok.1, by decide⟩, by decide, by decide, config_ok.2.1, by decide⟩

theorem witness_PulseStateMachineComplete :
    (∃ t, exec (.pulseStart 0 1) ready = .next t ∧ t.pe.state ≠ ready.pe.state) ∧
    (∃ t, exec .ptTick waitingDelay = .next t ∧ t.pe.state ≠ waitingDelay.pe.state) ∧
    (∃ t, exec .ptTick pulsing = .next t ∧ t.pe.state ≠ pulsing.pe.state) :=
  ⟨⟨_, rfl, by decide⟩, ⟨_, rfl, by decide⟩, _, rfl, by decide⟩

theorem witness_SamplersReturnLogicalState :
    settling.par.nAxes ≤ 8 ∧ WidthInv settling ∧ settling.tx.blocked = false ∧
    settling.limDrv[2]? = some .low ∧ settling.ctlDrv[3]? = some .low :=
  ⟨by decide, widths_ok.2, by decide⟩

theorem witness_LimitsEnableAndProbeIn :
    (ready.tx.blocked = false ∧ ready.db.state = .idle) ∧ (armed.tx.blocked = false ∧ armed.db.state ≠ .idle) := by
  decide

/-- With debounce, without it, and no qualifying edge. -/
theorem witness_LimitInputEdges :
    (∃ u : State, drivenBy 3 (0 : Byte) 0b001 u.limDrv ∧ (limLogical armed).getLsbD 0 = false ∧
      (limLogical u).getLsbD 0 = true ∧ armed.db.state ≠ .idle ∧ armed.ac.swDebounce = true ∧
      armedAtOnce.db.state ≠ .idle ∧ armedAtOnce.ac.swDebounce = false) ∧ ready.db.state = .idle :=
  ⟨⟨{ armed with limDrv := [.high, .low, .low] }, ⟨rfl, by decide⟩, by decide⟩, by decide⟩

theorem witness_ControlInputEdges :
    (∃ u : State, drivenBy 4 (0 : BitVec 4) 0b1000 u.ctlDrv ∧ (ctlLogical State.reset).getLsbD 3 = false ∧
      (ctlLogical u).getLsbD 3 = true) ∧
    (∀ k, k < 4 → (ctlLogical State.reset).getLsbD k = false) :=
  ⟨⟨{ State.reset with ctlDrv := [.low, .low, .low, .high] }, ⟨rfl, by decide⟩, by decide⟩, by decide⟩

theorem witness_DebounceTick :
    armed.db.state ≠ .counting ∧ (settling.db.state = .counting ∧ settling.db.cnt = 1) ∧
    (∃ s : State, s.db.state = .counting ∧ s.db.cnt ≠ 1) :=
  ⟨by decide, by decide, { settling with db := { state := .counting, cnt := 2 } }, by decide⟩

theorem witness_DebounceStateMachineComplete :
    (∃ t, exec (.limitsEnable true) ready = .next t ∧ t.db.state ≠ ready.db.state) ∧
    (∃ t, exec (.limIn 0 1) armed = .next t ∧ t.db.state ≠ armed.db.state ∧
      (limLogical armed).getLsbD 0 = false ∧ (limLogical t).getLsbD 0 = true) ∧
    (∃ t, exec .dbTick settling = .next t ∧ t.db.state ≠ settling.db.state) ∧
    (∃ t, exec (.limitsEnable false) settling = .next t ∧ t.db.state ≠ settling.db.state) :=
  ⟨⟨_, rfl, by decide⟩, ⟨_, rfl, by decide⟩, ⟨_, rfl, by decide⟩, _, rfl, by decide⟩

/-- One rpm in each policy, at the ends: 1000 and below, 1001, 10999, 11000; and `pw.min` = `pw.max`. -/
theorem witness_ComputePwmPolicies :
    (State.reset.tx.blocked = false ∧ State.reset.configured = false ∧ ready.configured = true) ∧ ConfigInv ready ∧
    ready.ac.rpmMin.toNat < ready.ac.rpmMax.toNat ∧ 1000 * 100 ≤ 100 * ready.ac.rpmMin.toNat ∧
    100 * ready.ac.rpmMin.toNat < 1001 * 100 ∧ 10999 * 100 < 100 * ready.ac.rpmMax.toNat ∧
    100 * ready.ac.rpmMax.toNat ≤ 11000 * 100 ∧ ready.pw.minValue.toNat < ready.pw.maxValue.toNat ∧
    (readyFlat.tx.blocked = false ∧ ConfigInv readyFlat ∧ readyFlat.configured = true ∧
      readyFlat.ac.rpmMin.toNat < readyFlat.ac.rpmMax.toNat ∧ 6000 * 100 < 100 * readyFlat.ac.rpmMax.toNat ∧
      100 * readyFlat.ac.rpmMin.toNat < 6000 * 100 ∧ readyFlat.pw.minValue = readyFlat.pw.maxValue) :=
  ⟨by decide, config_ok.1, by decide, by decide, by decide, by decide, by decide, by decide, by decide,
    config_ok.2.2.2.2, by decide⟩

theorem witness_PwmMappingMonotone :
    ready.configured = true ∧ ConfigInv ready ∧ ready.ac.rpmMin.toNat < ready.ac.rpmMax.toNat ∧
    ready.ac.rpmMin.toNat < (1001 : Word).toNat ∧ (1001 : Word).toNat ≤ (10999 : Word).toNat ∧
    (10999 : Word).toNat < ready.ac.rpmMax.toNat := ⟨by decide, config_ok.1, by decide⟩

theorem witness_SetSpeedProgramsPwm :
    (ready.tx.blocked = false ∧ ready.configured = true ∧ 0 = ready.pw.offValue ∧ 100 ≠ ready.pw.offValue) ∧
    State.reset.configured = false := by decide

theorem witness_SetStateComposes :
    (ready.tx.blocked = false ∧ ready.configured = true ∧ ready.ac.varSpeed = true) ∧
    (readyOnOff.tx.blocked = false ∧ readyOnOff.configured = true ∧ readyOnOff.ac.varSpeed = false) ∧
    (State.reset.tx.blocked = false ∧ State.reset.configured = false) := by decide

theorem witness_PwmWaveform :
    (199 < ready.pw.period.toNat ∧ ready.pwm.en = false) ∧
    (∃ s : State, 199 < s.pw.period.toNat ∧ s.pwm.en = true ∧ s.pw.period.toNat ≤ s.pwm.duty.toNat) ∧
    (∃ s : State, 199 < s.pw.period.toNat ∧ s.pwm.en = true ∧ s.pwm.duty.toNat < s.pw.period.toNat) :=
  ⟨by decide, ⟨{ ready with pwm := { en := true, duty := 200 } }, by decide⟩,
    { ready with pwm := { en := true, duty := 199 } }, by decide⟩

/-- Valid, refused as invalid, refused as busy. -/
theorem witness_ConfigurationApplies :
    (unapplied.par.valid = true ∧ unapplied.tx.blocked = false ∧ unapplied.pe.state = .idle ∧
      200 = unapplied.par.fPwm / unapplied.cfg.pwmFreq.toNat ∧
      180 = min (200 * unapplied.cfg.pwmMaxPct.toNat / 100) (200 - 1) ∧ 1 ≤ unapplied.cfg.pulseUs.toNat ∧
      1 ≤ unapplied.cfg.pwmFreq.toNat ∧ unapplied.cfg.pwmMinPct.toNat ≤ unapplied.cfg.pwmMaxPct.toNat ∧
      unapplied.cfg.pwmMaxPct.toNat ≤ 100) ∧
    (State.reset.pe.state = .idle ∧ ¬ 1 ≤ State.reset.cfg.pulseUs.toNat) ∧ pulsing.pe.state ≠ .idle := by decide

theorem witness_OnlyApplyChangesConfiguration :
    ∃ t, exec .cfgApply unapplied = .next t ∧ t.configured ≠ unapplied.configured := ⟨_, rfl, by decide⟩

theorem witness_CoolantSpindleStateAndNop : waiting.tx.blocked = true ∧ ready.tx.blocked = false := by decide

theorem witness_DelayTimerSteps :
    (State.reset.tx.blocked = false ∧ State.reset.dl.cnt = 0) ∧
    (∃ s : State, s.dl.cnt ≠ 0 ∧ (s.dl.cnt ≠ 1 ∨ s.dl.cb = false)) ∧ (∃ s : State, s.dl.cnt = 1 ∧ s.dl.cb = true) :=
  ⟨by decide, ⟨{ State.reset with dl := { cnt := 2, cb := true } }, by decide⟩,
    { State.reset with dl := { cnt := 1, cb := true } }, by decide⟩

theorem witness_CountdownsElapseExactly :
    (settling.db.state = .counting ∧ settling.db.cnt ≠ 0 ∧ 1 ≤ settling.db.cnt.toNat) ∧
    (State.reset.tx.blocked = false ∧ (2 : BitVec 16) ≠ 0 ∧ 2 ≤ (2 : BitVec 16).toNat) := by decide

/-- One step of each kind of callback, and one that delivers none. -/
theorem witness_CallbackDelivery :
    (∃ t, exec .dbTick settling = .next t ∧ t.cbTrace = settling.cbTrace ++ [Callback.limit 0b001]) ∧
    (∃ t, exec (.ctlIn 0 1) State.reset = .next t ∧ t.cbTrace = State.reset.cbTrace ++ [Callback.control 1]) ∧
    (∃ t, exec (.delayMs true 0) State.reset = .next t ∧ t.cbTrace = State.reset.cbTrace ++ [Callback.delay]) ∧
    (∃ t, exec (.putRetry true) waiting = .next t ∧ t.cbTrace = waiting.cbTrace ++ [Callback.block true]) ∧
    (∃ t, exec .nop State.reset = .next t ∧ t.cbTrace = State.reset.cbTrace) :=
  ⟨⟨_, rfl, by decide⟩, ⟨_, rfl, by decide⟩, ⟨_, rfl, by decide⟩, ⟨_, rfl, by decide⟩, _, rfl, by decide⟩

theorem witness_CausesAreSticky :
    (∃ t, exec (.wr 0x14 0x3FF) { State.reset with err := 0x001 } = .next t ∧ t.err.getLsbD 0 = false) ∧
    (∃ t, exec .nop waiting = .next t ∧ waiting.err.getLsbD 1 = false ∧ t.err.getLsbD 1 = true) :=
  ⟨⟨_, rfl, by decide⟩, _, rfl, by decide⟩

theorem witness_UntouchedByEveryStep :
    (∃ t, exec .rxfree received = .next t ∧ t.result ≠ received.result) ∧
    (∃ t, exec (.wr 0x04 1) State.reset = .next t ∧ t.arg0 ≠ State.reset.arg0) :=
  ⟨⟨_, rfl, by decide⟩, _, rfl, by decide⟩

/-- `received`, `sending`, `pulsing` and `settling` meet the invariants, and a step is possible in each. -/
theorem witness_StepKeepsBuffers :
    BufferInv received ∧ ∃ t, step (received.withFetchWord 32 0x05000000) = .next t :=
  ⟨buffers_ok.2.1, _, rfl⟩

theorem witness_StepKeepsTransmit :
    TransmitInv sending ∧ ∃ t, step (sending.withFetchWord 32 0x82000000) = .next t :=
  ⟨by constructor <;> decide, _, rfl⟩

theorem witness_StepKeepsEngines :
    (pulsing.par.valid = true ∧ ConfigInv pulsing ∧ PulseInv pulsing ∧
      ∃ t, step (pulsing.withFetchWord 32 0x84000000) = .next t) ∧
    (DebounceInv settling ∧ ∃ t, step (settling.withFetchWord 32 0x85000000) = .next t) :=
  ⟨⟨by decide, config_ok.2.2.1, pulse_ok.2.1, _, rfl⟩, by constructor; decide, _, rfl⟩

theorem witness_StepKeepsWidths :
    WidthInv settling ∧ ∃ t, step (settling.withFetchWord 32 0x86000707) = .next t := ⟨widths_ok.2, _, rfl⟩

theorem witness_ResetSatisfiesInvariants : Params.standard.valid = true := by decide

theorem witness_ResetTakesUnspecifiedValues :
    ({ pulsing with inbox := [.reset Unspecified.zero] } : State).inbox = .reset Unspecified.zero :: [] := rfl

theorem witness_ResetLeavesTableValues :
    ∃ t, step { pulsing with inbox := [.reset Unspecified.zero] } = .next t := ⟨_, rfl⟩

end Sys2Proof.Tests
end

section
/-! What a step does with the oldest input. -/
namespace Sys2Proof.Machine

theorem step_of_inbox_cons {s : State} {x : Input} {rest : List Input} (hin : s.inbox = x :: rest) :
    step s = takeInput x { s with inbox := rest } := by
  simp only [step, stepOnce, hin]

theorem takeInput_frame_of_decode_ok {f : Frame} {i : Instr} (hdec : decode f = .ok i) (s : State) :
    takeInput (.frame f) s = exec i s := by
  simp only [takeInput, hdec]

/-- Settles O6: the step takes the frame off the inbox, and a frame that decodes is run. Well-formedness is not used:
a read with a non-zero data field is run as it is decoded. -/
theorem stepRunsDecodedInstruction : Obligations.StepRunsDecodedInstruction := by
  intro s f i rest hin hdec _
  calc step s = takeInput (.frame f) { s with inbox := rest } := step_of_inbox_cons hin
    _ = exec i { s with inbox := rest } := takeInput_frame_of_decode_ok hdec _

end Sys2Proof.Machine
end

section
/-! What an instruction does, said once: `effect` is the body of an accepted command and the work of an enabled
stimulus, and `Answers` lists every way a step of any instruction can end. -/
namespace Sys2Proof.Machine

/-- What a command does once it is past the tests around it, and what an enabled stimulus does. The two bus
transactions have no effect of this kind: `Answers` says how they end. -/
def effect : Instr → State → State
  | .rd _ _ => id
  | .wr _ _ => id
  | .nop => id
  | .rxfree => rxfreeBody
  | .rxflush => rxflushBody
  | .rxcancel => rxcancelBody
  | .putbyte c => putbyteBody c
  | .getbyte => getbyteBody
  | .suspend f => suspendBody f
  | .rxovfclr => rxovfclrBody
  | .pulseStart dir step => pulseStartBody dir step
  | .stepWake => stepWakeBody
  | .stepIdle => stepIdleBody
  | .stepCycles => stepCyclesBody
  | .getLimits => getLimitsBody
  | .getControl => getControlBody
  | .limitsEnable f => limitsEnableBody f
  | .getProbe => getProbeBody
  | .computePwm ovr => computePwmBody ovr
  | .setSpeed duty => setSpeed duty
  | .setState ccw enable ovr => setStateBody ccw enable ovr
  | .spnGetState => spnGetStateBody
  | .cfgApply => cfgApplyBody
  | .coolantSet mist flood => coolantSetBody mist flood
  | .coolantGet => coolantGetBody
  | .delayMs cb ms => delayMsBody cb ms
  | .rxArrive handled b => rxArriveEffect handled b
  | .lineTake => lineTakeEffect
  | .txIrq => txIrqEffect
  | .putRetry cont => putRetryEffect cont
  | .ptTick => ptTickEffect
  | .dbTick => dbTickEffect
  | .limIn float level => limInEffect float level
  | .ctlIn float level => ctlInEffect float level
  | .prbIn float level => fun s => { s with prbDrv := driveOf float level }
  | .stTick => stTickEffect
  | .msTick => msTickEffect

/-- A command is its effect inside the tests of a HOST command. -/
theorem exec_command {i : Instr} (hi : isCommand i = true) (s : State) :
    exec i s = hostCommand (isGated i) (effect i) s := by
  cases i with
  | rd | wr | rxArrive | lineTake | txIrq | putRetry | ptTick | dbTick | limIn | ctlIn | prbIn | stTick | msTick =>
    cases hi
  | _ => rfl

/-- A stimulus that is a step is enabled, and is its effect. -/
theorem exec_stimulus {i : Instr} (hi : isHostStep i = false) {s t : State} (h : exec i s = .next t) :
    enabled i s = true ∧ t = effect i s := by
  cases i with
  | lineTake =>
    simp only [exec, execLineTake] at h
    split at h
    · next he => injection h with h; exact ⟨he, h.symm⟩
    · cases h
  | txIrq =>
    simp only [exec, execTxIrq] at h
    split at h
    · next he => injection h with h; exact ⟨he, h.symm⟩
    · cases h
  | putRetry =>
    simp only [exec, execPutRetry] at h
    split at h
    · next he => injection h with h; exact ⟨he, h.symm⟩
    · cases h
  | rxArrive | ptTick | dbTick | limIn | ctlIn | prbIn | stTick | msTick =>
    injection h with h
    exact ⟨rfl, h.symm⟩
  | _ => cases hi

theorem issued_of_command {i : Instr} (hi : isCommand i = true) : issued i = i := by
  cases i with
  | wr => cases hi
  | _ => rfl

theorem issued_of_stimulus {i : Instr} (hi : isHostStep i = false) : issued i = i := by
  cases i with
  | wr => cases hi
  | _ => rfl

theorem isCommand_of_isGated {i : Instr} (hi : isGated i = true) : isCommand i = true := by
  cases i with
  | pulseStart | computePwm | setSpeed | setState => rfl
  | _ => cases hi

/-- An instruction is a bus transaction, a command or a stimulus. -/
theorem instr_cases (i : Instr) :
    (∃ a v, i = .rd a v) ∨ (∃ a v, i = .wr a v) ∨ isCommand i = true ∨
      (isHostStep i = false ∧ isCommand i = false) := by
  cases i with
  | rd a v => exact .inl ⟨a, v, rfl⟩
  | wr a v => exact .inr (.inl ⟨a, v, rfl⟩)
  | rxArrive | lineTake | txIrq | putRetry | ptTick | dbTick | limIn | ctlIn | prbIn | stTick | msTick =>
    exact .inr (.inr (.inr ⟨rfl, rfl⟩))
  | _ => exact .inr (.inr (.inl rfl))

/-- Every command is enabled; the enabling conditions are those of stimuli. -/
theorem enabled_of_command {i : Instr} (hi : isCommand i = true) (s : State) : enabled i s = true := by
  cases i with
  | lineTake | txIrq | putRetry => cases hi
  | _ => rfl

/-- Every way a step of `i` from `s` can end. -/
inductive Answers (i : Instr) (s : State) : State → Prop where
  /-- A refused command, illegal word or write: one cause is raised. -/
  | refused (c : Cause) (hc : c ≠ .txUnderrun) : Answers i s (raise c s)
  /-- A RD of an address no register has. -/
  | badRead : Answers i s (readReturns 0 (raise .bus s))
  | read (v : Word) : Answers i s (readReturns v s)
  /-- A WR to a register that is not CMD. -/
  | wrote (a : Byte) (v : Word) (r : Reg) (hi : i = .wr a v) (hr : Reg.ofAddr a = some r) : Answers i s (r.write v s)
  /-- The instruction issued, a command or a stimulus, is accepted and enabled and has its effect. -/
  | ran (j : Instr) (hij : issued i = j) (hen : enabled j s = true)
      (hgate : isGated j = true → s.configured = true) : Answers i s (effect j s)

theorem answers_of_command {i j : Instr} (hj : isCommand j = true) (hij : issued i = j) {s t : State}
    (h : exec j s = .next t) : Answers i s t := by
  rw [exec_command hj] at h
  rcases hostCommand_cases h with ⟨-, rfl⟩ | ⟨-, -, -, rfl⟩ | ⟨-, hg, rfl⟩
  · exact .refused .busy nofun
  · exact .refused .notConfigured nofun
  · exact .ran j hij (enabled_of_command hj s) hg

theorem answers_of_wr {a : Byte} {v : Word} {s t : State} (h : exec (.wr a v) s = .next t) :
    Answers (.wr a v) s t := by
  rcases exec_wr_cases h with ⟨rfl, i, hd, hi, hx⟩ | ⟨-, -, ⟨-, rfl⟩ | ⟨-, rfl⟩⟩ | rfl | ⟨r, hr, -, rfl⟩
  · exact answers_of_command hi (by simp only [issued, if_pos, hd, Option.getD_some]) hx
  · exact .refused .busy nofun
  · exact .refused .illegalCmd nofun
  · exact .refused .bus nofun
  · exact .wrote a v r rfl hr

theorem answers_of_rd {a : Byte} {v : Word} {s t : State} (h : exec (.rd a v) s = .next t) :
    Answers (.rd a v) s t := by
  rcases exec_rd_cases a v s with ⟨-, he⟩ | ⟨r, -, he⟩
  · rw [he] at h; injection h with h; subst h; exact .badRead
  · rw [he] at h; injection h with h; subst h; exact .read (r.read s)

/-- A step of any instruction ends in one of the ways `Answers` lists. -/
theorem exec_answers {i : Instr} {s t : State} (h : exec i s = .next t) : Answers i s t := by
  rcases instr_cases i with ⟨a, v, rfl⟩ | ⟨a, v, rfl⟩ | hi | ⟨hi, hc⟩
  · exact answers_of_rd h
  · exact answers_of_wr h
  · exact answers_of_command hi (issued_of_command hi) h
  · obtain ⟨he, rfl⟩ := exec_stimulus hi h
    exact .ran i (issued_of_stimulus hi) he fun hg => absurd (isCommand_of_isGated hg) (by rw [hc]; nofun)

end Sys2Proof.Machine
end

section
/-! What each effect touches: the area of the state an instruction works on, the causes it can raise and the
callbacks it can deliver. One lemma per body that has branches; `effect_does` gathers them. -/
namespace Sys2Proof.Machine

/-- The areas of RTCC whose fields an instruction works on: the two sides of the serial transport and the line, the
pulse engine and the step timer, limit pins with debounce and the other input pins, spindle, active configuration,
coolant and delay. -/
inductive Area where
  | receive
  | transmit
  | line
  | pulse
  | stepTimer
  | limits
  | pins
  | spindle
  | config
  | aux

/-- The area an instruction works on. -/
def area : Instr → Area
  | .rxfree | .rxflush | .rxcancel | .getbyte | .suspend _ | .rxovfclr | .rxArrive _ _ => .receive
  | .putbyte _ | .putRetry _ | .txIrq => .transmit
  | .lineTake => .line
  | .pulseStart _ _ | .ptTick => .pulse
  | .stepWake | .stepIdle | .stepCycles | .stTick => .stepTimer
  | .getLimits | .limitsEnable _ | .dbTick | .limIn _ _ => .limits
  | .getControl | .getProbe | .ctlIn _ _ | .prbIn _ _ => .pins
  | .computePwm _ | .setSpeed _ | .setState _ _ _ | .spnGetState => .spindle
  | .cfgApply => .config
  | .rd _ _ | .wr _ _ | .nop | .coolantSet _ _ | .coolantGet | .delayMs _ _ | .msTick => .aux

/-- RESULT is written by HOST commands and by @PUT_RETRY (10_state.md R48). -/
def writesResult : Instr → Bool
  | .putRetry _ => true
  | i => isCommand i

/-- `s` with the fields of `t` through which any instruction may report: result, causes, callbacks. -/
def reported (i : Instr) (s t : State) : State :=
  { s with
    result := bif writesResult i then t.result else s.result
    result1 := t.result1
    err := t.err
    ipr := t.ipr
    limitEvt := t.limitEvt
    controlEvt := t.controlEvt
    cbTrace := t.cbTrace }

/-- `t` differs from `s` in what `i` may report and in the fields of its area only. -/
def InFrame (i : Instr) (s t : State) : Prop :=
  match area i with
  | .receive => t = { reported i s t with rx := t.rx, bk := t.bk }
  | .transmit => t = { reported i s t with tx := { t.tx with ovf := s.tx.ovf }, tdr := t.tdr, tdrFull := t.tdrFull }
  | .line => t = { reported i s t with tdrFull := t.tdrFull, txLine := t.txLine }
  | .pulse => t = { reported i s t with pe := t.pe, pt := t.pt, sp := t.sp, pwm := t.pwm, spnPwmCmd := t.spnPwmCmd }
  | .stepTimer => t = { reported i s t with st := t.st }
  | .limits => t = { reported i s t with limDrv := t.limDrv, db := t.db }
  | .pins => t = { reported i s t with ctlDrv := t.ctlDrv, prbDrv := t.prbDrv }
  | .spindle => t = { reported i s t with sp := t.sp, pwm := t.pwm, spnPwmCmd := t.spnPwmCmd }
  | .config => t = { reported i s t with ac := t.ac, pw := t.pw, configured := t.configured }
  | .aux => t = { reported i s t with cl := t.cl, dl := t.dl }

/-- What callbacks leave behind: the trace, the pending bits, the two latches. -/
def callbackFields (s : State) : List Callback × BitVec 4 × BitVec 8 × BitVec 4 :=
  (s.cbTrace, s.ipr, s.limitEvt, s.controlEvt)

/-- The argument a callback carries is the logical input state it is delivered in. -/
def Callback.reads (s : State) : Callback → Prop
  | .limit v => v = limLogical s
  | .control v => v = ctlDecode (ctlLogical s)
  | _ => True

/-- What `i` can do to the state: its frame, at most one cause, at most one callback. -/
structure Does (i : Instr) (s t : State) : Prop where
  frame : InFrame i s t
  causes : t.err = s.err ∨
    ∃ c : Cause, t.err = s.err ||| c.bit ∧ (c = .txUnderrun → i = .txIrq ∧ s.tx.head = s.tx.tail)
  callbacks : callbackFields t = callbackFields s ∨
    ∃ c : Callback, callbackFields t = callbackFields (deliver c s) ∧ c.reads t

section
variable {i : Instr} {s t : State}

theorem Does.quiet (hf : InFrame i s t) (he : t.err = s.err) (hc : callbackFields t = callbackFields s) : Does i s t :=
  ⟨hf, .inl he, .inl hc⟩

theorem Does.raises (c : Cause) (hn : c ≠ .txUnderrun) (hf : InFrame i s t) (he : t.err = s.err ||| c.bit)
    (hc : callbackFields t = callbackFields s) : Does i s t :=
  ⟨hf, .inr ⟨c, he, fun h => absurd h hn⟩, .inl hc⟩

theorem Does.delivers (c : Callback) (hr : c.reads t) (hf : InFrame i s t) (he : t.err = s.err)
    (hc : callbackFields t = callbackFields (deliver c s)) : Does i s t :=
  ⟨hf, .inl he, .inr ⟨c, hc, hr⟩⟩

end

/-! ## Serial transport -/

theorem rxcancelBody_does (s : State) : Does .rxcancel s (rxcancelBody s) := by
  unfold rxcancelBody
  split
  · exact .raises .cancelInBackup nofun rfl rfl rfl
  · exact .quiet rfl rfl rfl

theorem getbyteBody_does (s : State) : Does .getbyte s (getbyteBody s) := by
  unfold getbyteBody
  split <;> exact .quiet rfl rfl rfl

theorem suspendEffect_frame (f : Bool) (s : State) :
    suspendEffect f s = { s with rx := (suspendEffect f s).rx } := by
  unfold suspendEffect
  split
  · rfl
  · split <;> rfl

theorem suspendBody_does (f : Bool) (s : State) : Does (.suspend f) s (suspendBody f s) := by
  rw [suspendBody, suspendEffect_frame]
  exact .quiet rfl rfl rfl

theorem rxArriveEffect_does (handled : Bool) (b : Byte) (s : State) :
    Does (.rxArrive handled b) s (rxArriveEffect handled b s) := by
  unfold rxArriveEffect
  split
  · exact .quiet rfl rfl rfl
  · split
    · exact .quiet rfl rfl rfl
    · split <;> exact .delivers (.rt b handled) trivial rfl rfl rfl

theorem putbyteBody_does (c : Byte) (s : State) : Does (.putbyte c) s (putbyteBody c s) := by
  unfold putbyteBody
  split
  · exact .quiet rfl rfl rfl
  · split <;> exact .quiet rfl rfl rfl

theorem putRetryEffect_does (cont : Bool) (s : State) : Does (.putRetry cont) s (putRetryEffect cont s) := by
  unfold putRetryEffect
  split
  · exact .quiet rfl rfl rfl
  · split
    · exact .delivers (.block cont) trivial rfl rfl rfl
    · exact ⟨rfl, .inr ⟨.txAbort, rfl, nofun⟩, .inr ⟨.block cont, rfl, trivial⟩⟩

theorem txIrqEffect_does (s : State) : Does .txIrq s (txIrqEffect s) := by
  unfold txIrqEffect
  split
  · next he => exact ⟨rfl, .inr ⟨.txUnderrun, rfl, fun _ => ⟨rfl, (txEmpty_iff s).mp he⟩⟩, .inl rfl⟩
  · exact .quiet rfl rfl rfl

/-! ## Pulse engine and timers -/

/-- The lazy refresh writes what SetSpeed writes. -/
theorem lazySpindleRefresh_frame (s : State) :
    lazySpindleRefresh s =
      { s with
        sp := (lazySpindleRefresh s).sp
        pwm := (lazySpindleRefresh s).pwm
        spnPwmCmd := (lazySpindleRefresh s).spnPwmCmd } := by
  rcases lazySpindleRefresh_cases s with ⟨h, -⟩ | ⟨h, -⟩
  · rw [h]
  · rw [h]; exact setSpeed_frame _ s

theorem pulseStartBody_does (dir step : Byte) (s : State) :
    Does (.pulseStart dir step) s (pulseStartBody dir step s) := by
  unfold pulseStartBody
  split
  · exact .raises .pulseOverrun nofun rfl rfl rfl
  · rw [lazySpindleRefresh_frame, startPulse]
    split <;> exact .quiet rfl rfl rfl

theorem pulseMatch_frame (s : State) : pulseMatch s = { s with pe := (pulseMatch s).pe, pt := (pulseMatch s).pt } := by
  unfold pulseMatch
  split <;> rfl

theorem ptTickEffect_does (s : State) : Does .ptTick s (ptTickEffect s) := by
  unfold ptTickEffect
  split
  · dsimp only
    split
    · rw [pulseMatch_frame]; exact .quiet rfl rfl rfl
    · exact .quiet rfl rfl rfl
  · exact .quiet rfl rfl rfl

theorem stTickEffect_does (s : State) : Does .stTick s (stTickEffect s) := by
  unfold stTickEffect
  split
  · split
    · exact .delivers .step trivial rfl rfl rfl
    · exact .quiet rfl rfl rfl
  · exact .quiet rfl rfl rfl

/-! ## Inputs -/

theorem limitsEnableBody_does (f : Bool) (s : State) : Does (.limitsEnable f) s (limitsEnableBody f s) := by
  unfold limitsEnableBody
  split
  · split <;> exact .quiet rfl rfl rfl
  · exact .quiet rfl rfl rfl

theorem limInEffect_does (float level : Byte) (s : State) :
    Does (.limIn float level) s (limInEffect float level s) := by
  unfold limInEffect limitEdge
  dsimp only
  split
  · split
    · exact .quiet rfl rfl rfl
    · exact .delivers (.limit _) rfl rfl rfl rfl
  · exact .quiet rfl rfl rfl

theorem dbTickEffect_does (s : State) : Does .dbTick s (dbTickEffect s) := by
  unfold dbTickEffect
  split
  · split
    · exact .delivers (.limit (limLogical s)) rfl rfl rfl rfl
    · exact .quiet rfl rfl rfl
  · exact .quiet rfl rfl rfl

theorem ctlInEffect_does (float level : BitVec 4) (s : State) :
    Does (.ctlIn float level) s (ctlInEffect float level s) := by
  unfold ctlInEffect
  dsimp only
  split
  · exact .delivers (.control _) rfl rfl rfl rfl
  · exact .quiet rfl rfl rfl

/-! ## Spindle, configuration, delay -/

theorem setSpeed_does (duty : BitVec 16) (s : State) : Does (.setSpeed duty) s (setSpeed duty s) := by
  rw [setSpeed_frame]
  exact .quiet rfl rfl rfl

theorem setStateBody_does (ccw enable : Bool) (ovr : Byte) (s : State) :
    Does (.setState ccw enable ovr) s (setStateBody ccw enable ovr s) := by
  unfold setStateBody
  split
  · split
    · rw [spindleOn, setSpeed_frame]; exact .quiet rfl rfl rfl
    · rw [spindleOff, setSpeed_frame]; exact .quiet rfl rfl rfl
  · rw [spindleSwitch]
    split <;> exact .quiet rfl rfl rfl

theorem cfgApplyBody_does (s : State) : Does .cfgApply s (cfgApplyBody s) := by
  unfold cfgApplyBody
  split
  · exact .raises .cfgBusy nofun rfl rfl rfl
  · split
    · exact .raises .cfgInvalid nofun rfl rfl rfl
    · exact .quiet rfl rfl rfl

theorem delayMsBody_does (cb : Bool) (ms : BitVec 16) (s : State) : Does (.delayMs cb ms) s (delayMsBody cb ms s) := by
  unfold delayMsBody
  split
  · exact .delivers .delay trivial rfl rfl rfl
  · exact .quiet rfl rfl rfl

theorem msTickEffect_does (s : State) : Does .msTick s (msTickEffect s) := by
  unfold msTickEffect
  split
  · exact .quiet rfl rfl rfl
  · split
    · exact .delivers .delay trivial rfl rfl rfl
    · exact .quiet rfl rfl rfl

/-- Every effect stays in its frame, raises at most one cause and delivers at most one callback. -/
theorem effect_does (i : Instr) (s : State) : Does i s (effect i s) := by
  cases i with
  | rxcancel => exact rxcancelBody_does s
  | getbyte => exact getbyteBody_does s
  | suspend f => exact suspendBody_does f s
  | rxArrive handled b => exact rxArriveEffect_does handled b s
  | putbyte c => exact putbyteBody_does c s
  | putRetry cont => exact putRetryEffect_does cont s
  | txIrq => exact txIrqEffect_does s
  | pulseStart dir step => exact pulseStartBody_does dir step s
  | ptTick => exact ptTickEffect_does s
  | stTick => exact stTickEffect_does s
  | limitsEnable f => exact limitsEnableBody_does f s
  | limIn float level => exact limInEffect_does float level s
  | dbTick => exact dbTickEffect_does s
  | ctlIn float level => exact ctlInEffect_does float level s
  | setSpeed duty => exact setSpeed_does duty s
  | setState ccw enable ovr => exact setStateBody_does ccw enable ovr s
  | cfgApply => exact cfgApplyBody_does s
  | delayMs cb ms => exact delayMsBody_does cb ms s
  | msTick => exact msTickEffect_does s
  | _ => exact .quiet rfl rfl rfl

end Sys2Proof.Machine
end

section
/-! What no effect changes, and what only effects on one area change: the fields read off the frame. -/
namespace Sys2Proof.Machine

section
variable {i : Instr} {s t : State}

theorem InFrame.par (h : InFrame i s t) : t.par = s.par := by
  unfold InFrame at h
  split at h <;> exact (congrArg State.par h :)

theorem InFrame.inbox (h : InFrame i s t) : t.inbox = s.inbox := by
  unfold InFrame at h
  split at h <;> exact (congrArg State.inbox h :)

theorem InFrame.arg0 (h : InFrame i s t) : t.arg0 = s.arg0 := by
  unfold InFrame at h
  split at h <;> exact (congrArg State.arg0 h :)

theorem InFrame.cfg (h : InFrame i s t) : t.cfg = s.cfg := by
  unfold InFrame at h
  split at h <;> exact (congrArg State.cfg h :)

theorem InFrame.ovf (h : InFrame i s t) : t.tx.ovf = s.tx.ovf := by
  unfold InFrame at h
  split at h <;> exact (congrArg (fun u => u.tx.ovf) h :)

theorem InFrame.result (h : InFrame i s t) (hw : writesResult i = false) : t.result = s.result := by
  have hr : (reported i s t).result = s.result := by rw [reported, hw]; rfl
  unfold InFrame at h
  split at h <;> exact (congrArg State.result h :).trans hr

theorem InFrame.tx (h : InFrame i s t) (hp : area i ≠ .transmit) : t.tx = s.tx := by
  unfold InFrame at h
  split at h
  case h_2 he => exact absurd he hp
  all_goals exact (congrArg State.tx h :)

theorem InFrame.txLine (h : InFrame i s t) (hp : area i ≠ .line) : t.txLine = s.txLine := by
  unfold InFrame at h
  split at h
  case h_3 he => exact absurd he hp
  all_goals exact (congrArg State.txLine h :)

theorem InFrame.engine (h : InFrame i s t) (hp : area i ≠ .pulse) : t.pe = s.pe ∧ t.pt = s.pt := by
  unfold InFrame at h
  split at h
  case h_4 he => exact absurd he hp
  all_goals exact ⟨(congrArg State.pe h :), (congrArg State.pt h :)⟩

theorem InFrame.limits (h : InFrame i s t) (hp : area i ≠ .limits) : t.limDrv = s.limDrv ∧ t.db = s.db := by
  unfold InFrame at h
  split at h
  case h_6 he => exact absurd he hp
  all_goals exact ⟨(congrArg State.limDrv h :), (congrArg State.db h :)⟩

theorem InFrame.ctlDrv (h : InFrame i s t) (hp : area i ≠ .pins) : t.ctlDrv = s.ctlDrv := by
  unfold InFrame at h
  split at h
  case h_7 he => exact absurd he hp
  all_goals exact (congrArg State.ctlDrv h :)

theorem InFrame.configuration (h : InFrame i s t) (hp : area i ≠ .config) :
    t.ac = s.ac ∧ t.pw = s.pw ∧ t.configured = s.configured := by
  unfold InFrame at h
  split at h
  case h_9 he => exact absurd he hp
  all_goals exact ⟨(congrArg State.ac h :), (congrArg State.pw h :), (congrArg State.configured h :)⟩

end

theorem area_eq_transmit {i : Instr} (h : area i = .transmit) :
    (∃ c, i = .putbyte c) ∨ (∃ c, i = .putRetry c) ∨ i = .txIrq := by
  cases i with
  | putbyte c => exact .inl ⟨c, rfl⟩
  | putRetry c => exact .inr (.inl ⟨c, rfl⟩)
  | txIrq => exact .inr (.inr rfl)
  | _ => cases h

theorem area_eq_line {i : Instr} (h : area i = .line) : i = .lineTake := by
  cases i with
  | lineTake => rfl
  | _ => cases h

theorem area_eq_pulse {i : Instr} (h : area i = .pulse) : (∃ dir step, i = .pulseStart dir step) ∨ i = .ptTick := by
  cases i with
  | pulseStart dir step => exact .inl ⟨dir, step, rfl⟩
  | ptTick => exact .inr rfl
  | _ => cases h

theorem area_eq_limits {i : Instr} (h : area i = .limits) :
    i = .getLimits ∨ (∃ f, i = .limitsEnable f) ∨ i = .dbTick ∨ ∃ float level, i = .limIn float level := by
  cases i with
  | getLimits => exact .inl rfl
  | limitsEnable f => exact .inr (.inl ⟨f, rfl⟩)
  | dbTick => exact .inr (.inr (.inl rfl))
  | limIn float level => exact .inr (.inr (.inr ⟨float, level, rfl⟩))
  | _ => cases h

theorem area_eq_pins {i : Instr} (h : area i = .pins) :
    i = .getControl ∨ i = .getProbe ∨ (∃ float level, i = .ctlIn float level) ∨
      ∃ float level, i = .prbIn float level := by
  cases i with
  | getControl => exact .inl rfl
  | getProbe => exact .inr (.inl rfl)
  | ctlIn float level => exact .inr (.inr (.inl ⟨float, level, rfl⟩))
  | prbIn float level => exact .inr (.inr (.inr ⟨float, level, rfl⟩))
  | _ => cases h

theorem area_eq_config {i : Instr} (h : area i = .config) : i = .cfgApply := by
  cases i with
  | cfgApply => rfl
  | _ => cases h

/-! ## Traces -/

theorem effect_txLine_prefix (i : Instr) (s : State) : s.txLine <+: (effect i s).txLine := by
  by_cases hp : area i = .line
  · rw [area_eq_line hp]
    exact List.prefix_append _ _
  · rw [(effect_does i s).frame.txLine hp]

theorem Does.cbTrace_prefix {i : Instr} {s t : State} (h : Does i s t) : s.cbTrace <+: t.cbTrace := by
  rcases h.callbacks with hc | ⟨c, hc, -⟩
  · rw [show t.cbTrace = s.cbTrace from congrArg (·.1) hc]
  · rw [show t.cbTrace = s.cbTrace ++ [c] from congrArg (·.1) hc]
    exact List.prefix_append _ _

/-- An instruction is issued as itself, or, through CMD, as a command. -/
theorem issued_cases (i : Instr) : issued i = i ∨ isCommand (issued i) = true := by
  cases i with
  | wr a v =>
    by_cases ha : a = 0x00
    · cases hd : decodeCommand v with
      | none => exact .inl (by simp only [issued, hd, Option.getD_none, ite_self])
      | some j =>
        have hj : issued (.wr a v) = j := by simp only [issued, ha, if_pos, hd, Option.getD_some]
        exact .inr (hj ▸ isCommand_of_decodeCommand hd)
    · exact .inl (if_neg ha)
  | _ => exact .inl rfl

theorem writesResult_cases {i : Instr} (h : writesResult i = true) : isCommand i = true ∨ ∃ c, i = .putRetry c := by
  cases i with
  | putRetry c => exact .inr ⟨c, rfl⟩
  | _ => exact .inl h

/-! ## Writes of registers -/

theorem addr_of_ofAddr {a : Byte} {r : Reg} (h : Reg.ofAddr a = some r) : a = r.addr :=
  (beq_iff_eq.mp (List.find?_some (p := fun q : Reg => q.addr == a) h)).symm

theorem write_arg0 {r : Reg} (h : r ≠ .arg0) (v : Word) (s : State) : (r.write v s).arg0 = s.arg0 := by
  cases r with
  | arg0 => exact absurd rfl h
  | _ => rfl

theorem write_err {r : Reg} (h : r ≠ .err) (v : Word) (s : State) : (r.write v s).err = s.err := by
  cases r with
  | err => exact absurd rfl h
  | _ => rfl

end Sys2Proof.Machine
end

section
/-! Step laws over every instruction: what stays, which causes come and go, who changes the configuration. -/
namespace Sys2Proof.Machine

/-- Settles O53: refusals, reads and register writes have the fields in view, an effect has them in its frame. -/
theorem untouchedByEveryStep : Obligations.UntouchedByEveryStep := by
  intro i s t h
  cases exec_answers h with
  | refused c _ => exact ⟨rfl, rfl, rfl, List.prefix_rfl, List.prefix_rfl, absurd rfl, absurd rfl⟩
  | badRead => exact ⟨rfl, rfl, rfl, List.prefix_rfl, List.prefix_rfl, absurd rfl, absurd rfl⟩
  | read v => exact ⟨rfl, rfl, rfl, List.prefix_rfl, List.prefix_rfl, absurd rfl, absurd rfl⟩
  | wrote a v r hi hr =>
    have harg : (r.write v s).arg0 ≠ s.arg0 → ∃ v, i = .wr 0x04 v := by
      intro hne
      obtain rfl : r = .arg0 := by_contra fun h => hne (write_arg0 h v s)
      exact ⟨v, by rw [hi, addr_of_ofAddr hr]; rfl⟩
    rw [write_frame]
    exact ⟨rfl, rfl, rfl, List.prefix_rfl, List.prefix_rfl, absurd rfl, harg⟩
  | ran j hij =>
    have hd := effect_does j s
    refine ⟨hd.frame.par, hd.frame.inbox, hd.frame.ovf, effect_txLine_prefix j s, hd.cbTrace_prefix, ?_,
      absurd hd.frame.arg0⟩
    intro hne
    have hw : writesResult j = true := by_contra fun hw => hne (hd.frame.result (Bool.eq_false_iff.mpr hw))
    rcases issued_cases i with hi | hi
    · rcases writesResult_cases hw with hc | ⟨c, rfl⟩
      · exact .inl (hij ▸ hc)
      · exact .inr ⟨c, hi ▸ hij⟩
    · exact .inl hi

theorem getLsbD_bit (c : Cause) (k : Nat) : c.bit.getLsbD k = decide (k = c.code) := by
  have hc : c.code < 10 := by cases c <;> decide
  rw [Cause.bit, BitVec.getLsbD_shiftLeft, BitVec.getLsbD_one]
  by_cases hk : k = c.code
  · simp [hk, hc]
  · simp only [hk, decide_false, Bool.and_eq_false_iff, Bool.not_eq_false', decide_eq_true_eq, decide_eq_false_iff_not]
    omega

/-- What a step of any instruction does to ERR: nothing, one cause raised, or the causes a write to ERR names cleared.
TX_UNDERRUN is raised only where the transmit interrupt is enabled with no byte buffered. -/
theorem exec_err {i : Instr} {s t : State} (h : exec i s = .next t) :
    t.err = s.err ∨
      (∃ c : Cause, t.err = s.err ||| c.bit ∧ (c = .txUnderrun → s.tx.irqEn = true ∧ s.tx.head = s.tx.tail)) ∨
      ∃ v, i = .wr 0x14 v ∧ t.err = s.err &&& ~~~(named 10 v) := by
  cases exec_answers h with
  | refused c hc => exact .inr (.inl ⟨c, rfl, fun h => absurd h hc⟩)
  | badRead => exact .inr (.inl ⟨.bus, rfl, nofun⟩)
  | read v => exact .inl rfl
  | wrote a v r hi hr =>
    by_cases he : r = .err
    · subst he
      exact .inr (.inr ⟨v, by rw [hi, addr_of_ofAddr hr]; rfl, rfl⟩)
    · exact .inl (write_err he v s)
  | ran j _ hen =>
    rcases (effect_does j s).causes with he | ⟨c, he, hu⟩
    · exact .inl he
    · refine .inr (.inl ⟨c, he, fun hc => ?_⟩)
      obtain ⟨rfl, hempty⟩ := hu hc
      exact ⟨(Bool.and_eq_true_iff.mp hen).1, hempty⟩

/-- Settles O52: ERR is kept, or-ed with one cause's bit, or cleared by a write to it. -/
theorem causesAreSticky : Obligations.CausesAreSticky := by
  intro i s t h
  rcases exec_err h with he | ⟨c, he, -⟩ | ⟨v, rfl, he⟩
  · rw [he]
    exact ⟨fun k h1 h0 => absurd (h1.symm.trans h0) nofun, fun j k h0 h1 => absurd (h0.symm.trans h1) nofun⟩
  · simp only [he, BitVec.getLsbD_or, getLsbD_bit]
    constructor
    · intro k h1 h0
      simp [h1] at h0
    · intro j k hj hj' hk hk'
      simp only [hj, hk, Bool.false_or, decide_eq_true_eq] at hj' hk'
      rw [hj', hk']
  · simp only [he, BitVec.getLsbD_and, BitVec.getLsbD_not, named, BitVec.getLsbD_setWidth]
    constructor
    · intro k h1 h0
      refine ⟨v, rfl, ?_⟩
      have hk : k < 10 := BitVec.lt_of_getLsbD h1
      simpa [h1, hk] using h0
    · intro j k hj hj'
      simp [hj] at hj'

/-- What a step of any instruction does to the active configuration: nothing, or what a CFG_APPLY with the engine idle
and a valid shadow configuration writes. -/
theorem exec_configuration {i : Instr} {s t : State} (h : exec i s = .next t) :
    (t.ac = s.ac ∧ t.pw = s.pw ∧ t.configured = s.configured) ∨
      (issued i = .cfgApply ∧ s.pe.state = .idle ∧ cfgValid s = true ∧
        t = returns 1 { s with ac := cfgActive s, pw := cfgSpindlePwm s, configured := true }) := by
  cases exec_answers h with
  | refused => exact .inl ⟨rfl, rfl, rfl⟩
  | badRead => exact .inl ⟨rfl, rfl, rfl⟩
  | read => exact .inl ⟨rfl, rfl, rfl⟩
  | wrote a v r => rw [write_frame]; exact .inl ⟨rfl, rfl, rfl⟩
  | ran j hij =>
    by_cases hp : area j = .config
    · obtain rfl := area_eq_config hp
      rw [effect, cfgApplyBody]
      split
      · exact .inl ⟨rfl, rfl, rfl⟩
      · next hidle =>
        split
        · exact .inl ⟨rfl, rfl, rfl⟩
        · next hv => exact .inr ⟨hij, not_not.mp hidle, by simpa using hv, rfl⟩
    · exact .inl ((effect_does j s).frame.configuration hp)

/-- Settles O47: a step that changes the configuration is a CFG_APPLY with the engine idle. -/
theorem onlyApplyChangesConfiguration : Obligations.OnlyApplyChangesConfiguration := by
  intro i s t h hne
  rcases exec_configuration h with ⟨hac, hpw, hc⟩ | ⟨hi, hidle, -⟩
  · rcases hne with hne | hne | hne
    · exact absurd hac hne
    · exact absurd hpw hne
    · exact absurd hc hne
  · exact ⟨hi, hidle⟩

end Sys2Proof.Machine
end

section
/-! One step of the machine: what taking an input can be, and the reset input. -/
namespace Sys2Proof.Machine

/-- Every input that can be taken is a reset pulse or acts as some instruction: an illegal word as a write of it to
CMD, an access of another width as one to a misaligned address. -/
theorem takeInput_cases {x : Input} {s t : State} (h : takeInput x s = .next t) :
    (∃ i, exec i s = .next t) ∨ ∃ u, x = .reset u ∧ t = resetInput u s := by
  cases x with
  | frame f =>
    simp only [takeInput] at h
    split at h
    · exact .inl ⟨_, h⟩
    · exact .inl ⟨.wr 0x00 0xFFFFFFFF, h⟩
    · cases h
  | offWidth write =>
    cases write with
    | false => exact .inl ⟨.rd 0x01 0, h⟩
    | true => exact .inl ⟨.wr 0x01 0, h⟩
  | reset u =>
    injection h with h
    exact .inr ⟨u, rfl, h.symm⟩

/-- A step waits, runs an instruction in the state without the input, or is a reset pulse. -/
theorem step_cases {s t : State} (h : step s = .next t) :
    t = s ∨ ∃ rest, (∃ i, exec i { s with inbox := rest } = .next t) ∨
      ∃ u, s.inbox = .reset u :: rest ∧ t = resetInput u { s with inbox := rest } := by
  cases hin : s.inbox with
  | nil =>
    simp only [step, stepOnce, hin] at h
    injection h with h
    exact .inl h.symm
  | cons x rest =>
    rw [step_of_inbox_cons hin] at h
    rcases takeInput_cases h with hi | ⟨u, rfl, ht⟩
    · exact .inr ⟨rest, .inl hi⟩
    · exact .inr ⟨rest, .inr ⟨u, rfl, ht⟩⟩

end Sys2Proof.Machine
end

section
/-! The transmit side's invariant (spec/40_serial.md R154). -/
namespace Sys2Proof.Machine

theorem TransmitInv.congr {s t : State} (h : TransmitInv s) (htx : t.tx = s.tx) : TransmitInv t := by
  obtain ⟨h1, h2, h3⟩ := h
  exact ⟨htx ▸ h1, htx ▸ h2, htx ▸ h3⟩

/-- A buffer that is not full holds a byte after an enqueue. -/
theorem TransmitInv.txEnqueue {s : State} (h : TransmitInv s) (hf : txFull s = false) (c : Byte) :
    TransmitInv (txEnqueue c s) := by
  have hne : advance s.par.txMask s.tx.head ≠ s.tx.tail := fun he => by
    rw [(txFull_iff s).mpr he] at hf; cases hf
  exact ⟨fun _ => hne, fun _ => rfl, h.ovf_zero⟩

theorem putbyteBody_keeps_transmit (c : Byte) {s : State} (h : TransmitInv s) : TransmitInv (putbyteBody c s) := by
  unfold putbyteBody
  split
  · exact h.congr rfl
  · split
    · exact ⟨h.irq_nonempty, h.nonempty_irq, h.ovf_zero⟩
    · next hf => exact (h.txEnqueue (Bool.eq_false_iff.mpr hf) c).congr rfl

theorem putRetryEffect_keeps_transmit (cont : Bool) {s : State} (h : TransmitInv s) :
    TransmitInv (putRetryEffect cont s) := by
  unfold putRetryEffect
  split
  · next hf =>
    obtain ⟨h1, h2, h3⟩ := h.txEnqueue (by simpa using hf) s.tx.pend
    exact ⟨h1, h2, h3⟩
  · split
    · exact h.congr rfl
    · exact ⟨h.irq_nonempty, h.nonempty_irq, h.ovf_zero⟩

/-- The handler turns the interrupt off exactly when it takes the last byte. -/
theorem txIrqEffect_keeps_transmit {s : State} (h : TransmitInv s) : TransmitInv (txIrqEffect s) := by
  unfold txIrqEffect
  split
  · next he =>
    have he := (txEmpty_iff s).mp he
    exact ⟨nofun, fun hne => absurd he hne, h.ovf_zero⟩
  · next he =>
    have hirq : s.tx.irqEn = true := h.nonempty_irq fun heq => he ((txEmpty_iff s).mpr heq)
    dsimp only
    split
    · next hlast => exact ⟨nofun, fun hne => absurd hlast.symm hne, h.ovf_zero⟩
    · next hmore => exact ⟨fun _ heq => hmore heq.symm, fun _ => hirq, h.ovf_zero⟩

theorem effect_keeps_transmit (i : Instr) {s : State} (h : TransmitInv s) : TransmitInv (effect i s) := by
  by_cases hp : area i = .transmit
  · rcases area_eq_transmit hp with ⟨c, rfl⟩ | ⟨c, rfl⟩ | rfl
    · exact putbyteBody_keeps_transmit c h
    · exact putRetryEffect_keeps_transmit c h
    · exact txIrqEffect_keeps_transmit h
  · exact h.congr ((effect_does i s).frame.tx hp)

theorem exec_keeps_transmit {i : Instr} {s t : State} (h : TransmitInv s) (hx : exec i s = .next t) :
    TransmitInv t := by
  cases exec_answers hx with
  | refused => exact h.congr rfl
  | badRead => exact h.congr rfl
  | read => exact h.congr rfl
  | wrote a v r => exact h.congr (by rw [write_frame])
  | ran j => exact effect_keeps_transmit j h

/-- With the invariant TX_UNDERRUN has no occasion. -/
theorem exec_no_underrun {i : Instr} {s t : State} (h : TransmitInv s) (hx : exec i s = .next t)
    (ht : t.err.getLsbD 8 = true) : s.err.getLsbD 8 = true := by
  rcases exec_err hx with he | ⟨c, he, hu⟩ | ⟨v, -, he⟩
  · rwa [he] at ht
  · rw [he, BitVec.getLsbD_or, Bool.or_eq_true] at ht
    rcases ht with ht | ht
    · exact ht
    · rw [getLsbD_bit, decide_eq_true_eq] at ht
      have hc : c = .txUnderrun := by
        cases c with
        | txUnderrun => rfl
        | _ => cases ht
      obtain ⟨hirq, hempty⟩ := hu hc
      exact absurd hempty (h.irq_nonempty hirq)
  · rw [he, BitVec.getLsbD_and, Bool.and_eq_true] at ht
    exact ht.1

theorem resetWith_transmit (p : Params) (u : Unspecified) : TransmitInv (resetWith p u) :=
  ⟨nofun, absurd rfl, rfl⟩

/-- Settles O55: the enqueue is the only place that fills the buffer and the handler the only one that empties it, and
both set the interrupt enable to match. -/
theorem stepKeepsTransmit : Obligations.StepKeepsTransmit := by
  intro s t h hs
  rcases step_cases hs with rfl | ⟨rest, ⟨i, hx⟩ | ⟨u, -, rfl⟩⟩
  · exact ⟨h, id⟩
  · have h' : TransmitInv { s with inbox := rest } := h.congr rfl
    exact ⟨exec_keeps_transmit h' hx, (exec_no_underrun h' hx :)⟩
  · have herr : (0#10).getLsbD 8 ≠ true := by decide
    exact ⟨(resetWith_transmit s.par u).congr rfl, fun ht => absurd ht herr⟩

end Sys2Proof.Machine
end

section
/-! The invariants of configuration, pulse engine and debounce machine (spec/41_stepper.md R193, spec/44_aux.md R270,
spec/10_state.md R38). -/
namespace Sys2Proof.Machine

/-! ## An applied configuration -/

theorem ConfigInv.congr {s t : State} (h : ConfigInv s) (hac : t.ac = s.ac) (hpw : t.pw = s.pw)
    (hc : t.configured = s.configured) : ConfigInv t := by
  obtain ⟨h1, h2, h3, h4, h5, h6, h7, h8, h9⟩ := h
  constructor <;> simpa only [hac, hpw, hc]

/-- A count of microseconds is a count of ticks below 2^31. -/
theorem us_ticks_lt {k : Nat} (hk : k ≤ 32767) (us : BitVec 16) : us.toNat * k < 2 ^ 31 :=
  calc us.toNat * k ≤ 65535 * 32767 := Nat.mul_le_mul (by omega) hk
    _ < 2 ^ 31 := by decide

theorem toNat_us_ticks {k : Nat} (hk : k ≤ 32767) (us : BitVec 16) :
    (BitVec.ofNat 32 (us.toNat * k)).toNat = us.toNat * k := by
  have := us_ticks_lt hk us
  rw [BitVec.toNat_ofNat, Nat.mod_eq_of_lt (by omega)]

/-- The validity tests of CFG_APPLY, one by one. -/
theorem cfgValid_iff (s : State) : cfgValid s = true ↔
    1 ≤ s.cfg.pulseUs.toNat ∧ 1 ≤ s.cfg.pwmFreq.toNat ∧ 2 ≤ cfgPeriod s ∧ cfgPeriod s ≤ 65535 ∧
      s.cfg.pwmMinPct.toNat ≤ s.cfg.pwmMaxPct.toNat ∧ s.cfg.pwmMaxPct.toNat ≤ 100 ∧ 1 ≤ cfgMax s := by
  simp only [cfgValid, Bool.and_eq_true, decide_eq_true_eq, and_assoc]

theorem cfgMax_lt_period {s : State} (h : 2 ≤ cfgPeriod s) : cfgMax s < cfgPeriod s := by
  unfold cfgMax
  omega

theorem cfgMin_le_max (s : State) : cfgMin s ≤ cfgMax s := Nat.min_le_right _ _

theorem toNat_cfgGden (s : State) : (cfgGden s).toNat = s.cfg.rpmMax.toNat - s.cfg.rpmMin.toNat := by
  unfold cfgGden
  split
  · next h => rw [BitVec.toNat_sub_of_le (BitVec.le_def.mpr (Nat.le_of_lt h))]
  · next h =>
    exact (Nat.sub_eq_zero_of_le (Nat.not_lt.mp h)).symm

/-- What a successful CFG_APPLY writes satisfies the invariant of an applied configuration. -/
theorem applied_config {s t : State} (hpar : s.par.valid = true) (hv : cfgValid s = true) (hac : t.ac = cfgActive s)
    (hpw : t.pw = cfgSpindlePwm s) : ConfigInv t := by
  obtain ⟨-, -, -, -, -, ⟨htick, hticks⟩, -⟩ := s.par.valid_iff.mp hpar
  obtain ⟨hpulse, -, hper, hper', -, -, hmax⟩ := (cfgValid_iff s).mp hv
  have hlt := cfgMax_lt_period hper
  have hle := cfgMin_le_max s
  have hperiod : t.pw.period.toNat = cfgPeriod s := by
    rw [hpw, cfgSpindlePwm, BitVec.toNat_ofNat, Nat.mod_eq_of_lt (by omega)]
  have hmaxv : t.pw.maxValue.toNat = cfgMax s := by
    rw [hpw, cfgSpindlePwm, BitVec.toNat_ofNat, Nat.mod_eq_of_lt (by omega)]
  have hminv : t.pw.minValue.toNat = cfgMin s := by
    rw [hpw, cfgSpindlePwm, BitVec.toNat_ofNat, Nat.mod_eq_of_lt (by omega)]
  have hgnum : t.pw.gnum.toNat = cfgMax s - cfgMin s := by
    rw [hpw, cfgSpindlePwm, BitVec.toNat_ofNat, Nat.mod_eq_of_lt (by omega)]
  have hwidth : t.ac.widthTicks.toNat = s.cfg.pulseUs.toNat * s.par.ptTicksPerUs := by
    rw [hac]; exact toNat_us_ticks hticks _
  have hdelay : t.ac.delayTicks.toNat = s.cfg.delayUs.toNat * s.par.ptTicksPerUs := by
    rw [hac]; exact toNat_us_ticks hticks _
  exact {
    min_le_max := fun _ => by rw [hminv, hmaxv]; exact hle
    max_lt_period := fun _ => by rw [hmaxv, hperiod]; exact hlt
    max_pos := fun _ => by rw [hmaxv]; exact hmax
    off_zero := by rw [hpw]; rfl
    gnum_eq := fun _ => by rw [hgnum, hmaxv, hminv]
    gden_eq := fun _ => by rw [hpw, hac]; exact toNat_cfgGden s
    width_pos := fun _ => by rw [hwidth]; exact Nat.mul_pos hpulse htick
    delayed_iff := fun _ => by
      rw [hdelay, hac, Nat.one_le_iff_ne_zero, Nat.mul_ne_zero_iff]
      simp only [cfgActive, bne_iff_ne, ne_eq, BitVec.toNat_eq]
      exact ⟨fun h => ⟨h, Nat.one_le_iff_ne_zero.mp htick⟩, fun h => h.1⟩
    sum_fits := fun _ => by
      rw [hdelay, hwidth]
      have h1 := us_ticks_lt hticks s.cfg.delayUs
      have h2 := us_ticks_lt hticks s.cfg.pulseUs
      omega }

/-! ## The pulse engine -/

theorem PulseInv.congr {s t : State} (h : PulseInv s) (hpe : t.pe = s.pe) (hpt : t.pt = s.pt) (hac : t.ac = s.ac)
    (hc : t.configured = s.configured) : PulseInv t := by
  obtain ⟨h1, h2, h3, h4, h5, h6, h7⟩ := h
  constructor <;> simpa only [hpe, hpt, hac, hc]

/-- What a step of any instruction does to the pulse engine: nothing, a pulse started in a configured machine, or a
tick of its timer. -/
theorem exec_engine {i : Instr} {s t : State} (h : exec i s = .next t) :
    (t.pe = s.pe ∧ t.pt = s.pt) ∨
      (s.configured = true ∧ ∃ dir step, t = pulseStartBody dir step s) ∨ t = ptTickEffect s := by
  cases exec_answers h with
  | refused => exact .inl ⟨rfl, rfl⟩
  | badRead => exact .inl ⟨rfl, rfl⟩
  | read => exact .inl ⟨rfl, rfl⟩
  | wrote a v r => rw [write_frame]; exact .inl ⟨rfl, rfl⟩
  | ran j _ _ hgate =>
    by_cases hp : area j = .pulse
    · rcases area_eq_pulse hp with ⟨dir, step, rfl⟩ | rfl
      · exact .inr (.inl ⟨hgate rfl, dir, step, rfl⟩)
      · exact .inr (.inr rfl)
    · exact .inl ((effect_does j s).frame.engine hp)

/-- A pulse started from idle, in either mode. -/
theorem startPulse_keeps_pulse {s : State} (step : Byte) (hcfg : ConfigInv s) (hconf : s.configured = true)
    (hlow : s.pe.stepL = 0) : PulseInv (startPulse step s) := by
  unfold startPulse
  split
  · next hd =>
    have hpos := (hcfg.delayed_iff hconf).mp hd
    exact {
      run_iff := ⟨fun _ => nofun, fun _ => rfl⟩
      step_pulsing := fun hne => absurd hlow hne
      cnt_lt := fun _ => hpos
      active_configured := fun _ => hconf
      wait_delayed := fun _ => hd
      wait_cmp := fun _ => rfl
      pulsing_cmp := nofun }
  · next hd =>
    exact {
      run_iff := ⟨fun _ => nofun, fun _ => rfl⟩
      step_pulsing := fun _ => rfl
      cnt_lt := fun _ => hcfg.width_pos hconf
      active_configured := fun _ => hconf
      wait_delayed := nofun
      wait_cmp := nofun
      pulsing_cmp := fun _ => (if_neg hd).symm }

theorem pulseStartBody_keeps_pulse {s : State} (dir step : Byte) (hcfg : ConfigInv s) (h : PulseInv s)
    (hconf : s.configured = true) : PulseInv (pulseStartBody dir step s) := by
  unfold pulseStartBody
  split
  · exact h.congr rfl rfl rfl rfl
  · next hidle =>
    have hlow : s.pe.stepL = 0 := by_contra fun hne => by
      rw [h.step_pulsing hne] at hidle; exact hidle nofun
    rw [lazySpindleRefresh_frame]
    exact startPulse_keeps_pulse step (hcfg.congr rfl rfl rfl) hconf hlow

/-- At a match the wait turns into the pulse, with the compare value moved past the count, and the pulse ends. -/
theorem pulseMatch_keeps_pulse {s : State} (hcfg : ConfigInv s) (hrun : s.pt.run = true) (hidle : s.pe.state ≠ .idle)
    (hconf : s.configured = true)
    (hdel : s.pe.state = .waitDelay → s.ac.delayed = true ∧ s.pt.cnt = s.ac.delayTicks) :
    PulseInv (pulseMatch s) := by
  unfold pulseMatch
  split
  · next hw =>
    obtain ⟨hd, hcnt⟩ := hdel hw
    have hsum := hcfg.sum_fits hconf
    have hpos := hcfg.width_pos hconf
    exact {
      run_iff := ⟨fun _ => nofun, fun _ => hrun⟩
      step_pulsing := fun _ => rfl
      cnt_lt := fun _ => by
        show s.pt.cnt.toNat < (s.ac.delayTicks + s.ac.widthTicks).toNat
        rw [hcnt, BitVec.toNat_add, Nat.mod_eq_of_lt hsum]
        omega
      active_configured := fun _ => hconf
      wait_delayed := nofun
      wait_cmp := nofun
      pulsing_cmp := fun _ => (if_pos hd).symm }
  · exact {
      run_iff := ⟨nofun, fun hne => absurd rfl hne⟩
      step_pulsing := fun hne => absurd rfl hne
      cnt_lt := nofun
      active_configured := fun hne => absurd rfl hne
      wait_delayed := nofun
      wait_cmp := nofun
      pulsing_cmp := nofun }
  · next hi => exact absurd hi hidle

theorem ptTickEffect_keeps_pulse {s : State} (hcfg : ConfigInv s) (h : PulseInv s) : PulseInv (ptTickEffect s) := by
  unfold ptTickEffect
  split
  · next hrun =>
    have hcnt := h.cnt_lt hrun
    have hidle := h.run_iff.mp hrun
    dsimp only
    split
    · next hm =>
      exact pulseMatch_keeps_pulse (hcfg.congr rfl rfl rfl) hrun hidle (h.active_configured hidle)
        fun hw => ⟨h.wait_delayed hw, hm.trans (h.wait_cmp hw)⟩
    · next hm =>
      have hne : s.pt.cnt + 1 ≠ s.pt.cmp := hm
      have hlt : (s.pt.cnt + 1).toNat < s.pt.cmp.toNat := by
        bv_omega
      exact { h with cnt_lt := fun _ => hlt }
  · exact h

/-- Configuration and pulse engine together: the engine runs on the applied configuration's tick counts. -/
theorem exec_keeps_config_and_pulse {i : Instr} {s t : State} (hpar : s.par.valid = true) (hcfg : ConfigInv s)
    (h : PulseInv s) (hx : exec i s = .next t) : ConfigInv t ∧ PulseInv t := by
  rcases exec_configuration hx with ⟨hac, hpw, hc⟩ | ⟨-, hidle, hv, rfl⟩
  · refine ⟨hcfg.congr hac hpw hc, ?_⟩
    rcases exec_engine hx with ⟨hpe, hpt⟩ | ⟨hconf, dir, step, rfl⟩ | rfl
    · exact h.congr hpe hpt hac hc
    · exact pulseStartBody_keeps_pulse dir step hcfg h hconf
    · exact ptTickEffect_keeps_pulse hcfg h
  · refine ⟨applied_config hpar hv rfl rfl, ?_⟩
    exact {
      run_iff := h.run_iff
      step_pulsing := h.step_pulsing
      cnt_lt := h.cnt_lt
      active_configured := fun _ => rfl
      wait_delayed := fun hw => absurd (hidle.symm.trans hw) nofun
      wait_cmp := fun hw => absurd (hidle.symm.trans hw) nofun
      pulsing_cmp := fun hp => absurd (hidle.symm.trans hp) nofun }

/-! ## The debounce machine -/

theorem DebounceInv.congr {s t : State} (h : DebounceInv s) (hdb : t.db = s.db) : DebounceInv t :=
  ⟨hdb ▸ h.counting_iff⟩

theorem limitsEnableBody_keeps_debounce {s : State} (f : Bool) (h : DebounceInv s) :
    DebounceInv (limitsEnableBody f s) := by
  unfold limitsEnableBody
  split
  · split
    · next hidle =>
      have hcnt : s.db.cnt = 0 := by_contra fun hne => by
        rw [h.counting_iff.mp hne] at hidle; cases hidle
      exact ⟨⟨fun hne => absurd hcnt hne, nofun⟩⟩
    · exact h
  · exact ⟨⟨fun hne => absurd rfl hne, nofun⟩⟩

theorem limInEffect_keeps_debounce {s : State} (float level : Byte) (hpar : s.par.valid = true) (h : DebounceInv s) :
    DebounceInv (limInEffect float level s) := by
  have hticks : s.par.debounceTicks ≠ 0 := fun h0 => by
    obtain ⟨-, -, -, -, hpos, -⟩ := s.par.valid_iff.mp hpar
    rw [h0] at hpos; exact absurd hpos (by decide)
  unfold limInEffect limitEdge
  dsimp only
  split
  · split
    · exact ⟨⟨fun _ => rfl, fun _ => hticks⟩⟩
    · exact h.congr rfl
  · exact h.congr rfl

theorem dbTickEffect_keeps_debounce {s : State} (h : DebounceInv s) : DebounceInv (dbTickEffect s) := by
  unfold dbTickEffect
  split
  · next hcounting =>
    split
    · exact ⟨⟨fun hne => absurd rfl hne, nofun⟩⟩
    · next hmore => exact ⟨⟨fun _ => hcounting, fun _ => hmore⟩⟩
  · exact h

theorem effect_keeps_debounce {s : State} (i : Instr) (hpar : s.par.valid = true) (h : DebounceInv s) :
    DebounceInv (effect i s) := by
  by_cases hp : area i = .limits
  · rcases area_eq_limits hp with rfl | ⟨f, rfl⟩ | rfl | ⟨float, level, rfl⟩
    · exact h.congr rfl
    · exact limitsEnableBody_keeps_debounce f h
    · exact dbTickEffect_keeps_debounce h
    · exact limInEffect_keeps_debounce float level hpar h
  · exact h.congr ((effect_does i s).frame.limits hp).2

theorem exec_keeps_debounce {i : Instr} {s t : State} (hpar : s.par.valid = true) (h : DebounceInv s)
    (hx : exec i s = .next t) : DebounceInv t := by
  cases exec_answers hx with
  | refused => exact h.congr rfl
  | badRead => exact h.congr rfl
  | read => exact h.congr rfl
  | wrote a v r => exact h.congr (by rw [write_frame])
  | ran j => exact effect_keeps_debounce j hpar h

/-! ## Reset, and every step -/

theorem resetWith_config (p : Params) (u : Unspecified) : ConfigInv (resetWith p u) where
  min_le_max := nofun
  max_lt_period := nofun
  max_pos := nofun
  off_zero := rfl
  gnum_eq := nofun
  gden_eq := nofun
  width_pos := nofun
  delayed_iff := nofun
  sum_fits := nofun

theorem resetWith_pulse (p : Params) (u : Unspecified) : PulseInv (resetWith p u) where
  run_iff := ⟨nofun, fun hne => absurd rfl hne⟩
  step_pulsing := fun hne => absurd rfl hne
  cnt_lt := nofun
  active_configured := fun hne => absurd rfl hne
  wait_delayed := nofun
  wait_cmp := nofun
  pulsing_cmp := nofun

theorem resetWith_debounce (p : Params) (u : Unspecified) : DebounceInv (resetWith p u) :=
  ⟨⟨fun hne => absurd rfl hne, nofun⟩⟩

/-- Settles O56: only CFG_APPLY writes the configuration, and only while the engine is idle, so the compare values of
a pulse under way stay those of the configuration it started with. -/
theorem stepKeepsEngines : Obligations.StepKeepsEngines := by
  intro s t hpar hs
  rcases step_cases hs with rfl | ⟨rest, ⟨i, hx⟩ | ⟨u, -, rfl⟩⟩
  · exact ⟨fun hcfg hp => ⟨hcfg, hp⟩, id⟩
  · constructor
    · exact fun hcfg hp => exec_keeps_config_and_pulse (s := { s with inbox := rest }) hpar (hcfg.congr rfl rfl rfl)
        (hp.congr rfl rfl rfl rfl) hx
    · exact fun hd => exec_keeps_debounce (s := { s with inbox := rest }) hpar (hd.congr rfl) hx
  · exact ⟨fun _ _ => ⟨(resetWith_config s.par u).congr rfl rfl rfl, (resetWith_pulse s.par u).congr rfl rfl rfl rfl⟩,
      fun _ => (resetWith_debounce s.par u).congr rfl⟩

end Sys2Proof.Machine
end

section
/-! Per-axis fields stay within N_AXES bits, the drives match the pins, CONTROL_EVT holds at most one bit
(spec/10_state.md R33, R36, R39, R43, R54, R55, R58; spec/60_exceptions.md R299). -/
namespace Sys2Proof.Machine

/-! ## Values within the axes -/

theorem onAxes_iff {p : Params} {v : BitVec 8} : onAxes p v = true ↔ v &&& p.axisMask = v := beq_iff_eq

theorem onAxes_zero (p : Params) : onAxes p 0 = true := onAxes_iff.mpr BitVec.zero_and

theorem onAxes_and_mask (p : Params) (v : BitVec 8) : onAxes p (v &&& p.axisMask) = true :=
  onAxes_iff.mpr (by rw [BitVec.and_assoc, BitVec.and_self])

theorem onAxes_xor {p : Params} {v w : BitVec 8} (hv : onAxes p v = true) (hw : onAxes p w = true) :
    onAxes p (v ^^^ w) = true := by
  rw [onAxes_iff] at *
  conv_rhs => rw [← hv, ← hw]
  ext i hi
  simp only [BitVec.getElem_and, BitVec.getElem_xor, Bool.and_xor_distrib_right]

theorem limLogical_onAxes {s : State} (h : onAxes s.par s.ac.limInv = true) : onAxes s.par (limLogical s) = true :=
  onAxes_xor (onAxes_and_mask _ _) h

/-- The control decode answers no signal or one. -/
theorem ctlDecode_one (v : BitVec 4) : ctlDecode v ∈ [0b0000#4, 0b0001#4, 0b0010#4, 0b0100#4, 0b1000#4] := by
  revert v; decide

/-! ## The groups of fields -/

/-- The pulse engine's patterns are within the axes. -/
def engineOnAxes (s : State) : Prop :=
  onAxes s.par s.pe.stepL = true ∧ onAxes s.par s.pe.dirL = true ∧ onAxes s.par s.pe.stash = true

/-- The per-axis settings of the active configuration are within the axes. -/
def activeOnAxes (p : Params) (c : ActiveConfig) : Prop :=
  onAxes p c.stepInv = true ∧ onAxes p c.dirInv = true ∧ onAxes p c.limInv = true ∧ onAxes p c.limPull = true

/-- The shadow configuration holds named bits only. -/
def shadowNamed (p : Params) (c : ShadowConfig) : Prop :=
  onAxes p c.stepInv = true ∧ onAxes p c.dirInv = true ∧ onAxes p c.limInv = true ∧ onAxes p c.limPull = true ∧
    c.flags &&& flagsMask = c.flags

/-- The invariant, group by group. -/
theorem widthInv_iff (s : State) : WidthInv s ↔
    engineOnAxes s ∧ activeOnAxes s.par s.ac ∧ shadowNamed s.par s.cfg ∧
      (onAxes s.par s.limitEvt = true ∧ s.controlEvt ∈ [0b0000#4, 0b0001#4, 0b0010#4, 0b0100#4, 0b1000#4]) ∧
      s.limDrv.length = s.par.nAxes ∧ s.ctlDrv.length = 4 := by
  constructor
  · rintro ⟨h1, h2, h3, h4, h5, h6, h7, h8, h9, h10, h11, h12, h13, h14, h15, h16⟩
    exact ⟨⟨h1, h2, h3⟩, ⟨h5, h6, h7, h8⟩, ⟨h9, h10, h11, h12, h13⟩, ⟨h4, h14⟩, h15, h16⟩
  · rintro ⟨⟨h1, h2, h3⟩, ⟨h5, h6, h7, h8⟩, ⟨h9, h10, h11, h12, h13⟩, ⟨h4, h14⟩, h15, h16⟩
    exact ⟨h1, h2, h3, h4, h5, h6, h7, h8, h9, h10, h11, h12, h13, h14, h15, h16⟩

theorem pulseStartBody_onAxes {s : State} (dir step : Byte) (h : engineOnAxes s) :
    engineOnAxes (pulseStartBody dir step s) := by
  obtain ⟨hstep, hdir, hstash⟩ := h
  unfold pulseStartBody
  split
  · exact ⟨hstep, hdir, hstash⟩
  · rw [lazySpindleRefresh_frame, startPulse]
    split
    · exact ⟨hstep, onAxes_and_mask _ _, onAxes_and_mask _ _⟩
    · exact ⟨onAxes_and_mask _ _, onAxes_and_mask _ _, hstash⟩

theorem ptTickEffect_onAxes {s : State} (h : engineOnAxes s) : engineOnAxes (ptTickEffect s) := by
  obtain ⟨hstep, hdir, hstash⟩ := h
  unfold ptTickEffect
  split
  · dsimp only
    split
    · unfold pulseMatch
      split
      · exact ⟨hstash, hdir, hstash⟩
      · exact ⟨onAxes_zero _, hdir, hstash⟩
      · exact ⟨hstep, hdir, hstash⟩
    · exact ⟨hstep, hdir, hstash⟩
  · exact ⟨hstep, hdir, hstash⟩

theorem exec_keeps_engineOnAxes {i : Instr} {s t : State} (h : engineOnAxes s) (hx : exec i s = .next t)
    (hpar : t.par = s.par) : engineOnAxes t := by
  rcases exec_engine hx with ⟨hpe, -⟩ | ⟨-, dir, step, rfl⟩ | rfl
  · rw [engineOnAxes, hpe, hpar]; exact h
  · exact pulseStartBody_onAxes dir step h
  · exact ptTickEffect_onAxes h

theorem writeShadow_named (p : Params) (v : Word) {c : ShadowConfig} (h : shadowNamed p c) (r : Reg) :
    shadowNamed p (Reg.writeShadow p v c r) := by
  obtain ⟨h1, h2, h3, h4, h5⟩ := h
  cases r with
  | cfgStepInv => exact ⟨onAxes_and_mask _ _, h2, h3, h4, h5⟩
  | cfgDirInv => exact ⟨h1, onAxes_and_mask _ _, h3, h4, h5⟩
  | cfgLimitInv => exact ⟨h1, h2, onAxes_and_mask _ _, h4, h5⟩
  | cfgLimitPull => exact ⟨h1, h2, h3, onAxes_and_mask _ _, h5⟩
  | cfgFlags => exact ⟨h1, h2, h3, h4, by rw [Reg.writeShadow, BitVec.and_assoc, BitVec.and_self]⟩
  | _ => exact ⟨h1, h2, h3, h4, h5⟩

/-- A register write stores into the shadow configuration or leaves it. -/
theorem write_cfg (r : Reg) (v : Word) (s : State) : (r.write v s).cfg = Reg.writeShadow s.par v s.cfg r := by
  cases r <;> rfl

theorem exec_keeps_shadowNamed {i : Instr} {s t : State} (h : shadowNamed s.par s.cfg) (hx : exec i s = .next t) :
    shadowNamed s.par t.cfg := by
  cases exec_answers hx with
  | refused => exact h
  | badRead => exact h
  | read => exact h
  | wrote a v r => rw [write_cfg]; exact writeShadow_named s.par v h r
  | ran j => rw [(effect_does j s).frame.cfg]; exact h

/-! ## Latches and pins -/

theorem Does.latches {i : Instr} {s t : State} (h : Does i s t) :
    (t.limitEvt = s.limitEvt ∨ t.limitEvt = limLogical t) ∧
      (t.controlEvt = s.controlEvt ∨ t.controlEvt = ctlDecode (ctlLogical t)) := by
  rcases h.callbacks with hc | ⟨c, hc, hr⟩
  · exact ⟨.inl (congrArg (·.2.2.1) hc), .inl (congrArg (·.2.2.2) hc)⟩
  · have hl : t.limitEvt = c.limitLatch s.limitEvt := congrArg (·.2.2.1) hc
    have hk : t.controlEvt = c.controlLatch s.controlEvt := congrArg (·.2.2.2) hc
    cases c with
    | limit v => exact ⟨.inr (hl.trans hr), .inl hk⟩
    | control v => exact ⟨.inl hl, .inr (hk.trans hr)⟩
    | _ => exact ⟨.inl hl, .inl hk⟩

/-- A latch keeps its value or takes the logical input state of the step that delivers. -/
theorem exec_latches {i : Instr} {s t : State} (hx : exec i s = .next t) :
    (t.limitEvt = s.limitEvt ∨ t.limitEvt = limLogical t) ∧
      (t.controlEvt = s.controlEvt ∨ t.controlEvt = ctlDecode (ctlLogical t)) := by
  cases exec_answers hx with
  | refused => exact ⟨.inl rfl, .inl rfl⟩
  | badRead => exact ⟨.inl rfl, .inl rfl⟩
  | read => exact ⟨.inl rfl, .inl rfl⟩
  | wrote a v r => rw [write_frame]; exact ⟨.inl rfl, .inl rfl⟩
  | ran j => exact (effect_does j s).latches

theorem limInEffect_limDrv (float level : Byte) (s : State) :
    (limInEffect float level s).limDrv = drivesOf s.par.nAxes float level := by
  unfold limInEffect limitEdge
  dsimp only
  split
  · split <;> rfl
  · rfl

theorem ctlInEffect_ctlDrv (float level : BitVec 4) (s : State) :
    (ctlInEffect float level s).ctlDrv = drivesOf 4 float level := by
  unfold ctlInEffect
  dsimp only
  split <;> rfl

theorem limitsEnableBody_limDrv (f : Bool) (s : State) : (limitsEnableBody f s).limDrv = s.limDrv := by
  unfold limitsEnableBody
  split
  · split <;> rfl
  · rfl

theorem dbTickEffect_limDrv (s : State) : (dbTickEffect s).limDrv = s.limDrv := by
  unfold dbTickEffect
  split
  · split <;> rfl
  · rfl

theorem effect_limDrv_length (i : Instr) (s : State) :
    (effect i s).limDrv = s.limDrv ∨ (effect i s).limDrv.length = s.par.nAxes := by
  by_cases hp : area i = .limits
  · rcases area_eq_limits hp with rfl | ⟨f, rfl⟩ | rfl | ⟨float, level, rfl⟩
    · exact .inl rfl
    · exact .inl (limitsEnableBody_limDrv f s)
    · exact .inl (dbTickEffect_limDrv s)
    · exact .inr (by rw [effect, limInEffect_limDrv, length_drivesOf])
  · exact .inl ((effect_does i s).frame.limits hp).1

theorem effect_ctlDrv_length (i : Instr) (s : State) :
    (effect i s).ctlDrv = s.ctlDrv ∨ (effect i s).ctlDrv.length = 4 := by
  by_cases hp : area i = .pins
  · rcases area_eq_pins hp with rfl | rfl | ⟨float, level, rfl⟩ | ⟨float, level, rfl⟩
    · exact .inl rfl
    · exact .inl rfl
    · exact .inr (by rw [effect, ctlInEffect_ctlDrv, length_drivesOf])
    · exact .inl rfl
  · exact .inl ((effect_does i s).frame.ctlDrv hp)

theorem exec_drives {i : Instr} {s t : State} (hx : exec i s = .next t) :
    (t.limDrv = s.limDrv ∨ t.limDrv.length = s.par.nAxes) ∧ (t.ctlDrv = s.ctlDrv ∨ t.ctlDrv.length = 4) := by
  cases exec_answers hx with
  | refused => exact ⟨.inl rfl, .inl rfl⟩
  | badRead => exact ⟨.inl rfl, .inl rfl⟩
  | read => exact ⟨.inl rfl, .inl rfl⟩
  | wrote a v r => rw [write_frame]; exact ⟨.inl rfl, .inl rfl⟩
  | ran j => exact ⟨effect_limDrv_length j s, effect_ctlDrv_length j s⟩

/-! ## Every step -/

theorem exec_keeps_widths {i : Instr} {s t : State} (h : WidthInv s) (hx : exec i s = .next t) : WidthInv t := by
  obtain ⟨hpar, -⟩ := untouchedByEveryStep i s t hx
  obtain ⟨hengine, hactive, hshadow, ⟨hlimit, hcontrol⟩, hlim, hctl⟩ := (widthInv_iff s).mp h
  obtain ⟨hlimEvt, hctlEvt⟩ := exec_latches hx
  obtain ⟨hlimDrv, hctlDrv⟩ := exec_drives hx
  have hactive' : activeOnAxes t.par t.ac := by
    rcases exec_configuration hx with ⟨hac, -⟩ | ⟨-, -, -, rfl⟩
    · rw [hpar, hac]; exact hactive
    · obtain ⟨h1, h2, h3, h4, -⟩ := hshadow
      exact ⟨h1, h2, h3, h4⟩
  refine (widthInv_iff t).mpr ⟨exec_keeps_engineOnAxes hengine hx hpar, hactive', ?_, ⟨?_, ?_⟩, ?_, ?_⟩
  · rw [hpar]; exact exec_keeps_shadowNamed hshadow hx
  · rcases hlimEvt with he | he
    · rw [hpar, he]; exact hlimit
    · obtain ⟨-, -, hinv, -⟩ := hactive'
      rw [he]; exact limLogical_onAxes hinv
  · rcases hctlEvt with he | he
    · rw [he]; exact hcontrol
    · rw [he]; exact ctlDecode_one _
  · rw [hpar]
    rcases hlimDrv with he | he
    · rw [he]; exact hlim
    · exact he
  · rcases hctlDrv with he | he
    · rw [he]; exact hctl
    · exact he

theorem WidthInv.with_inbox {s : State} (h : WidthInv s) (inbox : List Input) : WidthInv { s with inbox := inbox } :=
  (widthInv_iff _).mpr ((widthInv_iff s).mp h)

theorem resetWith_widths (p : Params) (u : Unspecified) : WidthInv (resetWith p u) := by
  have h0 := onAxes_zero p
  refine (widthInv_iff _).mpr ⟨⟨h0, h0, h0⟩, ⟨h0, h0, h0, h0⟩, ⟨h0, h0, h0, h0, BitVec.zero_and⟩, ⟨h0, ?_⟩, ?_, ?_⟩
  · exact List.mem_cons_self
  · exact length_drivesOf _ _ _
  · exact length_drivesOf _ _ _

/-- Settles O57, group by group: whatever enters a per-axis field was masked, or comes from a field that was. -/
theorem stepKeepsWidths : Obligations.StepKeepsWidths := by
  intro s t h hs
  rcases step_cases hs with rfl | ⟨rest, ⟨i, hx⟩ | ⟨u, -, rfl⟩⟩
  · exact h
  · exact exec_keeps_widths (h.with_inbox rest) hx
  · exact (resetWith_widths s.par u).with_inbox rest

end Sys2Proof.Machine
end

section
/-! The state after reset (spec/10_state.md R65). -/
namespace Sys2Proof.Machine

theorem reset_eq_resetWith : State.reset = resetWith Params.standard Unspecified.zero := by
  simp only [resetWith, Unspecified.zero, List.take_nil, Memory.ofBytes]
  rfl

theorem length_take_le (n : Nat) (bs : List Byte) : 0 + (bs.take n).length ≤ n := by
  rw [Nat.zero_add]; exact List.length_take_le n bs

/-- The buffers after reset: indices 0, and as many of the given bytes as the capacity holds. -/
theorem resetWith_buffers (p : Params) (u : Unspecified) : BufferInv (resetWith p u) where
  rx_head := p.rxCap_pos
  rx_tail := p.rxCap_pos
  bk_head := p.rxCap_pos
  bk_tail := p.rxCap_pos
  tx_head := p.txCap_pos
  tx_tail := p.txCap_pos
  rx_wf := Memory.wf_ofBytes _
  bk_wf := Memory.wf_ofBytes _
  tx_wf := Memory.wf_ofBytes _
  rx_below := Memory.below_ofBytes _ _ _ (length_take_le _ _)
  bk_below := Memory.below_ofBytes _ _ _ (length_take_le _ _)
  tx_below := Memory.below_ofBytes _ _ _ (length_take_le _ _)

theorem resetWith_inv {p : Params} (hp : p.valid = true) (u : Unspecified) : Inv (resetWith p u) where
  par_valid := hp
  buffers := resetWith_buffers p u
  transmit := resetWith_transmit p u
  config := resetWith_config p u
  pulse := resetWith_pulse p u
  debounce := resetWith_debounce p u
  widths := resetWith_widths p u

/-- Settles O58: each invariant holds of `resetWith`, and `State.reset` is a case of it. -/
theorem resetSatisfiesInvariants : Obligations.ResetSatisfiesInvariants := by
  constructor
  · rw [reset_eq_resetWith]
    exact resetWith_inv (by decide) Unspecified.zero
  · exact fun p u hp => resetWith_inv hp u

/-- Settles O59: both are `resetWith` up to the inputs to come, and that writes the table's values. -/
theorem resetLeavesTableValues : Obligations.ResetLeavesTableValues := by
  intro t ht
  obtain ⟨p, u, inbox, rfl⟩ : ∃ p u inbox, t = { resetWith p u with inbox := inbox } := by
    rcases ht with rfl | ⟨s, u, rest, hin, hs⟩
    · exact ⟨Params.standard, Unspecified.zero, [], rfl⟩
    · rw [step_of_inbox_cons hin] at hs
      injection hs with hs
      exact ⟨s.par, u, rest, hs.symm⟩
  exact ⟨⟨rfl, rfl, rfl, rfl, rfl⟩, ⟨rfl, rfl, rfl, rfl⟩, ⟨rfl, rfl, rfl, rfl⟩, rfl, rfl, rfl, rfl, rfl, rfl, rfl, rfl,
    rfl, rfl, rfl, rfl, rfl, rfl, rfl, ⟨rfl, rfl, rfl, rfl, rfl, rfl⟩, rfl, rfl⟩

end Sys2Proof.Machine
end

section
/-! Reads and writes of the register bank (spec/10_state.md R45 to R62). -/
namespace Sys2Proof.Machine

/-! ## Reads -/

theorem ofAddr_addr (r : Reg) : Reg.ofAddr r.addr = some r := by cases r <;> rfl

theorem exec_rd_reg (r : Reg) (w : Word) (s : State) : exec (.rd r.addr w) s = .next { s with rdata := r.read s } := by
  simp only [exec, execRd, ofAddr_addr, readReturns]

/-- The registers with a field of their own, in the order of the table. -/
def fieldRegs : List Reg :=
  Reg.control.erase .status ++ Reg.config ++ (Reg.mirrors.erase .pinOut).erase .pinIn

theorem readTable_eq (s : State) : readTable s = fieldRegs.map fun r => (r.addr, r.read s) := rfl

/-- Settles O11: the table lists registers with what the model reads there. -/
theorem readsReturnRegisters : Obligations.ReadsReturnRegisters := by
  intro s w p hp
  rw [readTable_eq] at hp
  obtain ⟨r, -, rfl⟩ := List.mem_map.mp hp
  exact exec_rd_reg r w s

/-- The two bits of a field of two bits. -/
theorem extractLsb'_two (v : Word) (k : Nat) {c : BitVec 2} (h0 : v.getLsbD k = c.getLsbD 0)
    (h1 : v.getLsbD (k + 1) = c.getLsbD 1) : v.extractLsb' k 2 = c := by
  apply BitVec.eq_of_getLsbD_eq
  intro i hi
  rw [BitVec.getLsbD_extractLsb']
  obtain rfl | rfl : i = 0 ∨ i = 1 := by omega
  · simpa using h0
  · simpa using h1

/-! ## STATUS -/

/-- A field of two bits at bit `k`, bit by bit. -/
theorem getLsbD_fieldAt_two (v : BitVec 2) (k i : Nat) : (fieldAt v k).getLsbD i =
    (decide (i < 32) && (decide (i = k) && v.getLsbD 0 || decide (i = k + 1) && v.getLsbD 1)) := by
  rw [getLsbD_fieldAt]
  by_cases hk : i = k
  · simp [hk]
  · by_cases hk1 : i = k + 1
    · simp [hk1]
    · by_cases hle : k ≤ i
      · rw [BitVec.getLsbD_of_ge v (i - k) (by omega)]; simp [hk, hk1]
      · simp [hk, hk1, hle]

/-- Every bit of STATUS, named by its position. -/
theorem getLsbD_statusWord (s : State) (k : Nat) (hk : k < 32) : (statusWord s).getLsbD k =
    (decide (k = 0) && s.rx.ovf || decide (k = 1) && s.rx.bkActive || decide (k = 2) && s.rx.suspended ||
      decide (k = 3) && !rxEmpty s || decide (k = 4) && !txEmpty s || decide (k = 5) && s.tx.irqEn ||
      decide (k = 6) && s.tdrFull || decide (k = 7) && s.tx.blocked ||
      (decide (k = 8) && s.pe.state.code.getLsbD 0 || decide (k = 9) && s.pe.state.code.getLsbD 1) ||
      (decide (k = 10) && s.db.state.code.getLsbD 0 || decide (k = 11) && s.db.state.code.getLsbD 1) ||
      decide (k = 12) && s.pt.run || decide (k = 13) && s.st.en || decide (k = 14) && s.pwm.en ||
      decide (k = 15) && s.dl.cnt != 0 || decide (k = 16) && s.configured || decide (k = 17) && s.ac.delayed ||
      decide (k = 18) && s.tx.ovf || decide (k = 19) && s.sp.enabled || decide (k = 20) && s.sp.ccw) := by
  simp only [statusWord, BitVec.getLsbD_or, getLsbD_bitAt, getLsbD_fieldAt_two, hk, decide_true, Bool.true_and]

/-- Settles O12: the bits of the STATUS word, position by position. -/
theorem statusBitsReadState : Obligations.StatusBitsReadState := by
  intro s w
  refine ⟨statusWord s, exec_rd_reg .status w s, ?_⟩
  have hpe : (statusWord s).extractLsb' 8 2 = s.pe.state.code :=
    extractLsb'_two _ _ ((getLsbD_statusWord s 8 (by decide)).trans (by simp))
      ((getLsbD_statusWord s 9 (by decide)).trans (by simp))
  have hdb : (statusWord s).extractLsb' 10 2 = s.db.state.code :=
    extractLsb'_two _ _ ((getLsbD_statusWord s 10 (by decide)).trans (by simp))
      ((getLsbD_statusWord s 11 (by decide)).trans (by simp))
  have hhigh : ∀ k, 21 ≤ k → (statusWord s).getLsbD k = false := by
    intro k hk
    by_cases h32 : k < 32
    · rw [getLsbD_statusWord s k h32]
      simp (disch := omega) only [decide_eq_false, Bool.false_and, Bool.or_self]
    · exact BitVec.getLsbD_of_ge _ _ (by omega)
  simp only [hpe, hdb, getLsbD_statusWord, Nat.reduceLT, Nat.reduceEqDiff, decide_true, decide_false, Bool.false_and,
    Bool.true_and, Bool.false_or, Bool.or_false, true_and]
  refine ⟨?_, ?_, ?_, ?_, ?_, hhigh⟩
  · rw [rxEmpty, beq_eq_decide, decide_not]
  · rw [txEmpty, beq_eq_decide, decide_not]
  · cases s.pe.state <;> rfl
  · cases s.db.state <;> rfl
  · rw [bne, beq_eq_decide, decide_not]

/-! ## The pin mirrors -/

theorem getLsbD_stepPins {s : State} (hn : s.par.nAxes ≤ 8) (i : Nat) :
    (stepPins s).getLsbD i = ((s.pe.stepL.getLsbD i ^^ s.ac.stepInv.getLsbD i) && decide (i < s.par.nAxes)) := by
  rw [stepPins, BitVec.getLsbD_and, BitVec.getLsbD_xor, getLsbD_axisMask _ hn]

theorem getLsbD_dirPins {s : State} (hn : s.par.nAxes ≤ 8) (i : Nat) :
    (dirPins s).getLsbD i = ((s.pe.dirL.getLsbD i ^^ s.ac.dirInv.getLsbD i) && decide (i < s.par.nAxes)) := by
  rw [dirPins, BitVec.getLsbD_and, BitVec.getLsbD_xor, getLsbD_axisMask _ hn]

theorem getLsbD_limRaw {s : State} (hn : s.par.nAxes ≤ 8) (i : Nat) : (limRaw s).getLsbD i =
    (decide (i < 8) && rawLevel (s.limDrv.getD i .low) (s.ac.limPull.getLsbD i) && decide (i < s.par.nAxes)) := by
  rw [limRaw, BitVec.getLsbD_and, getLsbD_rawBits, getLsbD_axisMask _ hn]

/-- The groups of PIN_OUT: step pins from bit 0, direction pins from bit 8, the single pins from bit 16. -/
theorem getLsbD_pinOutWord (s : State) (k : Nat) (hk : k < 32) : (pinOutWord s).getLsbD k =
    ((stepPins s).getLsbD k || decide (8 ≤ k) && (dirPins s).getLsbD (k - 8) || decide (k = 16) && spnEnPin s ||
      decide (k = 17) && spnDirPin s || decide (k = 18) && pwmIdlePin s || decide (k = 19) && floodPin s ||
      decide (k = 20) && mistPin s) := by
  simp only [pinOutWord, BitVec.getLsbD_or, getLsbD_bitAt, getLsbD_fieldAt, hk, decide_true, Bool.true_and,
    Nat.zero_le, Nat.sub_zero]

/-- The groups of PIN_IN: limit pins from bit 0, control pins from bit 8, the probe at bit 12. -/
theorem getLsbD_pinInWord (s : State) (k : Nat) (hk : k < 32) : (pinInWord s).getLsbD k =
    ((limRaw s).getLsbD k || decide (8 ≤ k) && (ctlRaw s).getLsbD (k - 8) || decide (k = 12) && prbRaw s) := by
  simp only [pinInWord, BitVec.getLsbD_or, getLsbD_bitAt, getLsbD_fieldAt, hk, decide_true, Bool.true_and,
    Nat.zero_le, Nat.sub_zero]

/-- A step pin's bit of PIN_OUT. -/
theorem pinOutWord_step (s : State) {i : Nat} (hi : i < 8) : (pinOutWord s).getLsbD i = (stepPins s).getLsbD i := by
  rw [getLsbD_pinOutWord s i (by omega)]
  simp (disch := omega) only [decide_eq_false, Bool.false_and, Bool.or_false]

/-- A direction pin's bit of PIN_OUT. -/
theorem pinOutWord_dir (s : State) {i : Nat} (hi : i < 8) :
    (pinOutWord s).getLsbD (8 + i) = (dirPins s).getLsbD i := by
  rw [getLsbD_pinOutWord s (8 + i) (by omega), BitVec.getLsbD_of_ge _ _ (Nat.le_add_right 8 i), Nat.add_sub_cancel_left]
  simp (disch := omega) only [decide_eq_false, decide_eq_true, Bool.false_and, Bool.true_and, Bool.or_false,
    Bool.false_or]

theorem pinOutWord_single (s : State) :
    (pinOutWord s).getLsbD 16 = spnEnPin s ∧ (pinOutWord s).getLsbD 17 = spnDirPin s ∧
      (pinOutWord s).getLsbD 18 = pwmIdlePin s ∧ (pinOutWord s).getLsbD 19 = floodPin s ∧
      (pinOutWord s).getLsbD 20 = mistPin s := by
  simp (disch := decide) only [getLsbD_pinOutWord, BitVec.getLsbD_of_ge, Nat.reduceLeDiff, Nat.reduceSub,
    Nat.reduceEqDiff, decide_true, decide_false, Bool.false_and, Bool.true_and, Bool.false_or, Bool.or_false,
    Bool.and_false, and_self]

theorem pinOutWord_high (s : State) {k : Nat} (hk : 21 ≤ k) : (pinOutWord s).getLsbD k = false := by
  by_cases h32 : k < 32
  · rw [getLsbD_pinOutWord s k h32]
    simp (disch := omega) only [BitVec.getLsbD_of_ge, decide_eq_false, Bool.false_and, Bool.and_false, Bool.or_self]
  · exact BitVec.getLsbD_of_ge _ _ (by omega)

/-- A limit pin's bit of PIN_IN. -/
theorem pinInWord_lim (s : State) {i : Nat} (hi : i < 8) : (pinInWord s).getLsbD i = (limRaw s).getLsbD i := by
  rw [getLsbD_pinInWord s i (by omega)]
  simp (disch := omega) only [decide_eq_false, Bool.false_and, Bool.or_false]

/-- A control pin's bit of PIN_IN. -/
theorem pinInWord_ctl (s : State) {i : Nat} (hi : i < 4) : (pinInWord s).getLsbD (8 + i) = (ctlRaw s).getLsbD i := by
  rw [getLsbD_pinInWord s (8 + i) (by omega), BitVec.getLsbD_of_ge _ _ (Nat.le_add_right 8 i), Nat.add_sub_cancel_left]
  simp (disch := omega) only [decide_eq_false, decide_eq_true, Bool.false_and, Bool.true_and, Bool.or_false,
    Bool.false_or]

theorem pinInWord_prb (s : State) : (pinInWord s).getLsbD 12 = prbRaw s := by
  rw [getLsbD_pinInWord s 12 (by decide), BitVec.getLsbD_of_ge _ _ (by decide), BitVec.getLsbD_of_ge _ _ (by decide)]
  rfl

theorem pinInWord_high (s : State) {k : Nat} (hk : 13 ≤ k) : (pinInWord s).getLsbD k = false := by
  by_cases h32 : k < 32
  · rw [getLsbD_pinInWord s k h32]
    simp (disch := omega) only [BitVec.getLsbD_of_ge, decide_eq_false, Bool.false_and, Bool.and_false, Bool.or_self]
  · exact BitVec.getLsbD_of_ge _ _ (by omega)

/-- Settles O13: the two mirrors group by group; the drives of `WidthInv` say which pins there are. -/
theorem pinMirrorsReadPins : Obligations.PinMirrorsReadPins := by
  intro s w hn hw
  have hlim := hw.lim_pins
  have hctl := hw.ctl_pins
  obtain ⟨hen, hdir, hpwm, hflood, hmist⟩ := pinOutWord_single s
  refine ⟨⟨pinOutWord s, exec_rd_reg .pinOut w s, ?_, ?_, ?_, hen, hdir, ?_, hflood, hmist, fun k => pinOutWord_high s⟩,
    ⟨pinInWord s, exec_rd_reg .pinIn w s, ?_, ?_, ?_, ?_, fun k => pinInWord_high s⟩⟩
  · intro i hi
    rw [pinOutWord_step s (by omega), getLsbD_stepPins hn, decide_eq_true hi, Bool.and_true]
  · intro i hi
    rw [pinOutWord_dir s (by omega), getLsbD_dirPins hn, decide_eq_true hi, Bool.and_true]
  · intro i hi hi8
    rw [pinOutWord_step s hi8, pinOutWord_dir s hi8, getLsbD_stepPins hn, getLsbD_dirPins hn,
      decide_eq_false (Nat.not_lt.mpr hi), Bool.and_false, Bool.and_false]
    exact ⟨rfl, rfl⟩
  · rw [hpwm, pwmIdlePin, Bool.false_xor]
  · intro i d hd
    obtain ⟨hi, -⟩ := List.getElem?_eq_some_iff.mp hd
    rw [hlim] at hi
    rw [pinInWord_lim s (by omega), getLsbD_limRaw hn, decide_eq_true (by omega), decide_eq_true hi,
      List.getD_eq_getElem?_getD, hd, Bool.and_true, Bool.true_and, Option.getD_some]
    cases d <;> rfl
  · intro i d hd
    obtain ⟨hi, -⟩ := List.getElem?_eq_some_iff.mp hd
    rw [hctl] at hi
    rw [pinInWord_ctl s hi, ctlRaw, getLsbD_rawBits, decide_eq_true hi, List.getD_eq_getElem?_getD, hd, Bool.true_and,
      Option.getD_some]
    cases d <;> rfl
  · rw [pinInWord_prb, prbRaw]
    cases s.prbDrv <;> rfl
  · intro i hi hi8
    rw [pinInWord_lim s hi8, getLsbD_limRaw hn, decide_eq_false (Nat.not_lt.mpr hi), Bool.and_false]

/-- Settles O45: the count is below the period, so only its comparison with the duty is left. -/
theorem pwmWaveform : Obligations.PwmWaveform := by
  intro s count hcount
  refine ⟨fun hoff => ?_, fun hon hge => ?_, fun hon hlt => ?_⟩
  · rw [pwmPin, pwmLogical, hoff, Bool.false_and, Bool.false_xor]
  · rw [pwmPin, pwmLogical, hon, Nat.min_eq_right hge, decide_eq_true hcount, Bool.and_self, Bool.true_xor]
  · rw [pwmPin, pwmLogical, hon, Nat.min_eq_left hlt.le, Bool.true_and]

/-! ## Writes -/

theorem exec_wr_reg {r : Reg} (hk : r.kind = .readWrite ∨ r.kind = .writeOneToClear) (v : Word) (s : State) :
    exec (.wr r.addr v) s = .next (r.write v s) := by
  simp only [exec, execWr, ofAddr_addr]
  rcases hk with hk | hk <;> rw [hk]

theorem bne_zero_iff {w : Nat} (v : BitVec w) : (v != 0) = true ↔ ∃ k, k < w ∧ v.getLsbD k = true := by
  rw [bne_iff_ne]
  constructor
  · intro hne
    by_contra hall
    refine hne (BitVec.eq_of_getLsbD_eq fun k hk => ?_)
    rw [BitVec.ofNat_eq_ofNat, BitVec.getLsbD_zero]
    exact Bool.eq_false_iff.mpr fun hv => hall ⟨k, hk, hv⟩
  · rintro ⟨k, -, hv⟩ rfl
    rw [BitVec.ofNat_eq_ofNat, BitVec.getLsbD_zero] at hv
    cases hv

/-- Settles O15: ERR keeps the bits not written as 1, IPR too, and the interrupt output is the pending bits and-ed with
the enable bits. -/
theorem writeOneClearsErrAndIpr : Obligations.WriteOneClearsErrAndIpr := by
  intro s v
  have herr : ∀ k, k < 10 → (s.err &&& ~~~(named 10 v)).getLsbD k = (s.err.getLsbD k && !v.getLsbD k) := by
    intro k hk
    simp only [named, BitVec.getLsbD_and, BitVec.getLsbD_not, BitVec.getLsbD_setWidth, hk, decide_true, Bool.true_and]
  have hipr : ∀ k, k < 4 → (s.ipr &&& ~~~(named 4 v)).getLsbD k = (s.ipr.getLsbD k && !v.getLsbD k) := by
    intro k hk
    simp only [named, BitVec.getLsbD_and, BitVec.getLsbD_not, BitVec.getLsbD_setWidth, hk, decide_true, Bool.true_and]
  refine ⟨⟨_, exec_wr_reg (r := .err) (.inr rfl) v s, herr⟩,
    ⟨_, exec_wr_reg (r := .ipr) (.inr rfl) v s, hipr, ?_⟩⟩
  rw [irq, bne_zero_iff]
  refine exists_congr fun k => and_congr_right fun hk => ?_
  rw [BitVec.getLsbD_and, hipr k hk]
  simp only [Bool.and_eq_true, Bool.not_eq_true']
  tauto

/-- The registers of kind RW, in the order of the table. -/
def rwRegs : List Reg := .arg0 :: .ier :: .spnPwmCmd :: Reg.config

/-- The bits an RW register names; the registers not listed are not of this kind. -/
def namedBits (p : Params) : Reg → Word
  | .arg0 | .cfgPwmFreq | .cfgRpmMin | .cfgRpmMax => 0xFFFFFFFF
  | .ier | .cfgCtrlInv | .cfgCtrlPull => 0xF
  | .spnPwmCmd | .cfgPulseUs | .cfgDelayUs => 0xFFFF
  | .cfgStepInv | .cfgDirInv | .cfgLimitInv | .cfgLimitPull => p.axisMask.setWidth 32
  | .cfgProbe | .cfgCoolInv => 0x3
  | .cfgSpnInv => 0x7
  | .cfgPwmMinPct | .cfgPwmMaxPct => 0x7F
  | .cfgFlags => 0x37
  | _ => 0

theorem writeTable_eq (p : Params) : writeTable p = rwRegs.map fun r => (r.addr, namedBits p r) := rfl

theorem kind_of_mem_rwRegs {r : Reg} (h : r ∈ rwRegs) : r.kind = .readWrite := by
  revert r; decide

/-- A stored value reads back as its named bits. -/
theorem zext32_named_and {w : Nat} (v : Word) (m : BitVec w) :
    zext32 (named w v &&& m) = v &&& m.setWidth 32 := by
  apply BitVec.eq_of_getLsbD_eq
  intro i hi
  simp only [named, getLsbD_zext32, BitVec.getLsbD_and, BitVec.getLsbD_setWidth, hi, decide_true, Bool.true_and]
  by_cases hiw : i < w
  · rw [decide_eq_true hiw, Bool.true_and]
  · rw [BitVec.getLsbD_of_ge m i (by omega), Bool.and_false, Bool.and_false]

theorem zext32_named {w : Nat} (v : Word) :
    zext32 (named w v) = v &&& (BitVec.allOnes w).setWidth 32 := by
  rw [← zext32_named_and, BitVec.and_allOnes]

/-- After a write an RW register reads the value's named bits. -/
theorem read_write_same {r : Reg} (h : r.kind = .readWrite) (v : Word) (s : State) :
    r.read (r.write v s) = v &&& namedBits s.par r := by
  cases r with
  | arg0 | cfgPwmFreq | cfgRpmMin | cfgRpmMax => exact BitVec.and_allOnes.symm
  | ier | spnPwmCmd | cfgCtrlInv | cfgCtrlPull | cfgProbe | cfgSpnInv | cfgCoolInv | cfgPulseUs | cfgDelayUs
  | cfgPwmMinPct | cfgPwmMaxPct => exact zext32_named v
  | cfgStepInv | cfgDirInv | cfgLimitInv | cfgLimitPull | cfgFlags => exact zext32_named_and v _
  | _ => cases h

/-- A write to one RW register leaves what the others read: each pair of registers stands in two different fields. -/
theorem read_write_other {r q : Reg} (hr : r.kind = .readWrite) (hq : q.kind = .readWrite) (hne : q ≠ r) (v : Word)
    (s : State) : q.read (r.write v s) = q.read s := by
  cases r <;> cases hr <;> cases q <;> cases hq
  all_goals try rfl
  all_goals exact absurd rfl hne

/-- An RW register's write touches ARG0, IER, SPN_PWM_CMD and the shadow configuration only. -/
theorem write_rw_frame {r : Reg} (h : r.kind = .readWrite) (v : Word) (s : State) :
    { r.write v s with arg0 := s.arg0, ier := s.ier, spnPwmCmd := s.spnPwmCmd, cfg := s.cfg } = s := by
  cases r with
  | err | ipr => cases h
  | _ => rfl

/-- Settles O14: the table lists the RW registers with their named bits, and a write touches one of them. -/
theorem writesStoreNamedBits : Obligations.WritesStoreNamedBits := by
  intro s v w p hp
  rw [writeTable_eq] at hp
  obtain ⟨r, hr, rfl⟩ := List.mem_map.mp hp
  have hk := kind_of_mem_rwRegs hr
  refine ⟨r.write v s, exec_wr_reg (.inl hk) v s, ?_, ?_, write_rw_frame hk v s⟩
  · rw [← read_write_same hk v s]
    exact exec_rd_reg r w _
  · intro q hq hne
    rw [writeTable_eq] at hq
    obtain ⟨q, hmem, rfl⟩ := List.mem_map.mp hq
    refine ⟨q.read s, exec_rd_reg q w s, ?_⟩
    rw [← read_write_other hk (kind_of_mem_rwRegs hmem) (fun h => hne (by rw [h])) v s]
    exact exec_rd_reg q w _

end Sys2Proof.Machine
end

section
/-! The ring buffers (spec/20_memory.md R90, R92; spec/40_serial.md R154): the effects that work on them, what every
step keeps of them, and which steps write their indices. -/
namespace Sys2Proof.Machine

theorem InFrame.receive {i : Instr} {s t : State} (h : InFrame i s t) (hp : area i ≠ .receive) :
    t.rx = s.rx ∧ t.bk = s.bk := by
  unfold InFrame at h
  split at h
  case h_1 he => exact absurd he hp
  all_goals exact ⟨(congrArg State.rx h :), (congrArg State.bk h :)⟩

theorem area_eq_receive {i : Instr} (h : area i = .receive) :
    i = .rxfree ∨ i = .rxflush ∨ i = .rxcancel ∨ i = .getbyte ∨ (∃ f, i = .suspend f) ∨ i = .rxovfclr ∨
      ∃ handled b, i = .rxArrive handled b := by
  cases i with
  | rxfree => exact .inl rfl
  | rxflush => exact .inr (.inl rfl)
  | rxcancel => exact .inr (.inr (.inl rfl))
  | getbyte => exact .inr (.inr (.inr (.inl rfl)))
  | suspend f => exact .inr (.inr (.inr (.inr (.inl ⟨f, rfl⟩))))
  | rxovfclr => exact .inr (.inr (.inr (.inr (.inr (.inl rfl)))))
  | rxArrive handled b => exact .inr (.inr (.inr (.inr (.inr (.inr ⟨handled, b, rfl⟩)))))
  | _ => cases h

/-! ## The invariant, ring by ring -/

/-- One ring: its indices are below the capacity, its cells canonical and below the capacity. -/
structure RingOk (cap : Nat) (data : Memory) (head tail : Nat) : Prop where
  head_lt : head < cap
  tail_lt : tail < cap
  wf : data.wf = true
  below : data.below cap = true

/-- The live receive buffer and the backup snapshot, which SUSPEND 0 and a tool-acknowledge byte copy to each other. -/
structure ReceiveOk (s : State) : Prop where
  live : RingOk s.par.rxCap s.rx.data s.rx.head s.rx.tail
  backup : RingOk s.par.rxCap s.bk.data s.bk.head s.bk.tail

/-- The transmit buffer. -/
def TransmitOk (s : State) : Prop := RingOk s.par.txCap s.tx.data s.tx.head s.tx.tail

theorem bufferInv_iff (s : State) : BufferInv s ↔ ReceiveOk s ∧ TransmitOk s := by
  constructor
  · intro h
    exact ⟨⟨⟨h.rx_head, h.rx_tail, h.rx_wf, h.rx_below⟩, ⟨h.bk_head, h.bk_tail, h.bk_wf, h.bk_below⟩⟩,
      ⟨h.tx_head, h.tx_tail, h.tx_wf, h.tx_below⟩⟩
  · rintro ⟨⟨rx, bk⟩, tx⟩
    exact ⟨rx.head_lt, rx.tail_lt, bk.head_lt, bk.tail_lt, tx.head_lt, tx.tail_lt, rx.wf, bk.wf, tx.wf, rx.below,
      bk.below, tx.below⟩

section
variable {cap head tail head' tail' : Nat} {data : Memory}

theorem RingOk.move (h : RingOk cap data head tail) (hh : head' < cap) (ht : tail' < cap) :
    RingOk cap data head' tail' :=
  ⟨hh, ht, h.wf, h.below⟩

/-- A byte stored at head keeps the cells canonical and below the capacity. -/
theorem RingOk.store (h : RingOk cap data head tail) (b : Byte) : RingOk cap (data.write head b) head tail :=
  ⟨h.head_lt, h.tail_lt, Memory.wf_write h.wf head b, Memory.below_write h.below h.head_lt b⟩

end

theorem ReceiveOk.congr {s t : State} (h : ReceiveOk s) (hpar : t.par = s.par) (hrx : t.rx = s.rx)
    (hbk : t.bk = s.bk) : ReceiveOk t := by
  obtain ⟨hlive, hbackup⟩ := h
  rw [← hpar] at hlive hbackup
  exact ⟨hrx ▸ hlive, hbk ▸ hbackup⟩

theorem TransmitOk.congr {s t : State} (h : TransmitOk s) (hpar : t.par = s.par) (htx : t.tx = s.tx) :
    TransmitOk t := by
  unfold TransmitOk at h ⊢
  rwa [hpar, htx]

/-! ## Receive side -/

theorem rxcancelBody_keeps_receive {s : State} (h : ReceiveOk s) : ReceiveOk (rxcancelBody s) := by
  unfold rxcancelBody
  split
  · exact ⟨h.live, h.backup⟩
  · exact ⟨(h.live.store _).move (advance_rx_lt _ _) h.live.head_lt, h.backup⟩

theorem getbyteBody_keeps_receive {s : State} (h : ReceiveOk s) : ReceiveOk (getbyteBody s) := by
  unfold getbyteBody
  split
  · exact ⟨h.live, h.backup⟩
  · exact ⟨h.live.move h.live.head_lt (advance_rx_lt _ _), h.backup⟩

/-- A restore makes the backup the live buffer. -/
theorem suspendEffect_keeps_receive (f : Bool) {s : State} (h : ReceiveOk s) : ReceiveOk (suspendEffect f s) := by
  unfold suspendEffect
  split
  · exact ⟨h.live, h.backup⟩
  · dsimp only
    split
    · exact ⟨h.backup, h.backup⟩
    · exact ⟨h.live, h.backup⟩

/-- A snapshot makes the live buffer the backup and empties the live one at its head. -/
theorem rxArriveEffect_keeps_receive (handled : Bool) (b : Byte) {s : State} (h : ReceiveOk s) :
    ReceiveOk (rxArriveEffect handled b s) := by
  unfold rxArriveEffect
  split
  · exact ⟨h.live, h.backup⟩
  · split
    · exact ⟨h.live.move h.live.head_lt h.live.head_lt, h.live⟩
    · split
      · exact ⟨h.live, h.backup⟩
      · exact ⟨(h.live.store b).move (advance_rx_lt _ _) h.live.tail_lt, h.backup⟩

theorem effect_keeps_receive (i : Instr) {s : State} (h : ReceiveOk s) : ReceiveOk (effect i s) := by
  by_cases hp : area i = .receive
  · rcases area_eq_receive hp with rfl | rfl | rfl | rfl | ⟨f, rfl⟩ | rfl | ⟨handled, b, rfl⟩
    · exact ⟨h.live, h.backup⟩
    · exact ⟨h.live.move s.par.rxCap_pos s.par.rxCap_pos, h.backup⟩
    · exact rxcancelBody_keeps_receive h
    · exact getbyteBody_keeps_receive h
    · exact (suspendEffect_keeps_receive f h).congr rfl rfl rfl
    · exact ⟨h.live, h.backup⟩
    · exact rxArriveEffect_keeps_receive handled b h
  · have hf := (effect_does i s).frame
    obtain ⟨hrx, hbk⟩ := hf.receive hp
    exact h.congr hf.par hrx hbk

/-! ## Transmit side -/

theorem TransmitOk.txEnqueue {s : State} (h : TransmitOk s) (c : Byte) : TransmitOk (txEnqueue c s) :=
  (h.store c).move (advance_tx_lt _ _) h.tail_lt

theorem putbyteBody_keeps_ring (c : Byte) {s : State} (h : TransmitOk s) : TransmitOk (putbyteBody c s) := by
  unfold putbyteBody
  split
  · exact h
  · split
    · exact h
    · exact h.txEnqueue c

theorem putRetryEffect_keeps_ring (cont : Bool) {s : State} (h : TransmitOk s) :
    TransmitOk (putRetryEffect cont s) := by
  unfold putRetryEffect
  split
  · exact h.txEnqueue s.tx.pend
  · split <;> exact h

theorem txIrqEffect_keeps_ring {s : State} (h : TransmitOk s) : TransmitOk (txIrqEffect s) := by
  unfold txIrqEffect
  split
  · exact h
  · exact h.move h.head_lt (advance_tx_lt _ _)

theorem effect_keeps_ring (i : Instr) {s : State} (h : TransmitOk s) : TransmitOk (effect i s) := by
  by_cases hp : area i = .transmit
  · rcases area_eq_transmit hp with ⟨c, rfl⟩ | ⟨cont, rfl⟩ | rfl
    · exact putbyteBody_keeps_ring c h
    · exact putRetryEffect_keeps_ring cont h
    · exact txIrqEffect_keeps_ring h
  · have hf := (effect_does i s).frame
    exact h.congr hf.par (hf.tx hp)

/-! ## Every step -/

theorem BufferInv.congr {s t : State} (h : BufferInv s) (hpar : t.par = s.par) (hrx : t.rx = s.rx) (hbk : t.bk = s.bk)
    (htx : t.tx = s.tx) : BufferInv t := by
  obtain ⟨hr, ht⟩ := (bufferInv_iff s).mp h
  exact (bufferInv_iff t).mpr ⟨hr.congr hpar hrx hbk, ht.congr hpar htx⟩

theorem effect_keeps_buffers (i : Instr) {s : State} (h : BufferInv s) : BufferInv (effect i s) := by
  obtain ⟨hr, ht⟩ := (bufferInv_iff s).mp h
  exact (bufferInv_iff _).mpr ⟨effect_keeps_receive i hr, effect_keeps_ring i ht⟩

theorem exec_keeps_buffers {i : Instr} {s t : State} (h : BufferInv s) (hx : exec i s = .next t) : BufferInv t := by
  cases exec_answers hx with
  | refused => exact h.congr rfl rfl rfl rfl
  | badRead => exact h.congr rfl rfl rfl rfl
  | read => exact h.congr rfl rfl rfl rfl
  | wrote a v r => rw [write_frame]; exact h.congr rfl rfl rfl rfl
  | ran j => exact effect_keeps_buffers j h

/-- Settles O54: a store goes to the head of its ring, an index moves by `advance`, to 0 or to another index of a ring
of the same capacity, and a reset pulse gives buffers that satisfy the invariant. -/
theorem stepKeepsBuffers : Obligations.StepKeepsBuffers := by
  intro s t h hs
  rcases step_cases hs with rfl | ⟨rest, ⟨i, hx⟩ | ⟨u, -, rfl⟩⟩
  · exact h
  · have h' : BufferInv { s with inbox := rest } := h.congr rfl rfl rfl rfl
    exact exec_keeps_buffers h' hx
  · exact (resetWith_buffers s.par u).congr rfl rfl rfl rfl

/-! ## Who writes the indices -/

/-- Only a command is issued by another instruction than itself. -/
theorem eq_of_issued {i j : Instr} (hij : issued i = j) (hj : isCommand j = false) : i = j := by
  rcases issued_cases i with hi | hi
  · exact hi.symm.trans hij
  · rw [hij, hj] at hi; cases hi

theorem effect_rx_head {i : Instr} {s : State} (hne : (effect i s).rx.head ≠ s.rx.head) :
    (∃ handled b, i = .rxArrive handled b) ∨ i = .rxflush ∨ i = .rxcancel ∨ i = .suspend false := by
  by_cases hp : area i = .receive
  · rcases area_eq_receive hp with rfl | rfl | rfl | rfl | ⟨f, rfl⟩ | rfl | ⟨handled, b, rfl⟩
    · exact absurd rfl hne
    · exact .inr (.inl rfl)
    · exact .inr (.inr (.inl rfl))
    · rw [effect, getbyteBody] at hne
      split at hne <;> exact absurd rfl hne
    · cases f with
      | false => exact .inr (.inr (.inr rfl))
      | true => exact absurd rfl hne
    · exact absurd rfl hne
    · exact .inl ⟨handled, b, rfl⟩
  · exact absurd (by rw [((effect_does i s).frame.receive hp).1]) hne

theorem rxArriveEffect_tail {handled : Bool} {b : Byte} {s : State}
    (hne : (rxArriveEffect handled b s).rx.tail ≠ s.rx.tail) : b = s.par.toolackByte := by
  unfold rxArriveEffect at hne
  split at hne
  · exact absurd rfl hne
  · split at hne
    · next hb => exact hb.1
    · split at hne <;> exact absurd rfl hne

theorem effect_rx_tail {i : Instr} {s : State} (hne : (effect i s).rx.tail ≠ s.rx.tail) :
    i = .getbyte ∨ (∃ handled, i = .rxArrive handled s.par.toolackByte) ∨ i = .rxflush ∨ i = .rxcancel ∨
      i = .suspend false := by
  by_cases hp : area i = .receive
  · rcases area_eq_receive hp with rfl | rfl | rfl | rfl | ⟨f, rfl⟩ | rfl | ⟨handled, b, rfl⟩
    · exact absurd rfl hne
    · exact .inr (.inr (.inl rfl))
    · exact .inr (.inr (.inr (.inl rfl)))
    · exact .inl rfl
    · cases f with
      | false => exact .inr (.inr (.inr (.inr rfl)))
      | true => exact absurd rfl hne
    · exact absurd rfl hne
    · exact .inr (.inl ⟨handled, by rw [rxArriveEffect_tail hne]⟩)
  · exact absurd (by rw [((effect_does i s).frame.receive hp).1]) hne

theorem effect_tx_head {i : Instr} {s : State} (hne : (effect i s).tx.head ≠ s.tx.head) :
    (∃ c, i = .putbyte c) ∨ ∃ cont, i = .putRetry cont := by
  by_cases hp : area i = .transmit
  · rcases area_eq_transmit hp with hc | hc | rfl
    · exact .inl hc
    · exact .inr hc
    · rw [effect, txIrqEffect] at hne
      split at hne <;> exact absurd rfl hne
  · exact absurd (by rw [(effect_does i s).frame.tx hp]) hne

theorem effect_tx_tail {i : Instr} {s : State} (hne : (effect i s).tx.tail ≠ s.tx.tail) : i = .txIrq := by
  by_cases hp : area i = .transmit
  · rcases area_eq_transmit hp with ⟨c, rfl⟩ | ⟨cont, rfl⟩ | rfl
    · rw [effect, putbyteBody] at hne
      split at hne
      · exact absurd rfl hne
      · split at hne <;> exact absurd rfl hne
    · rw [effect, putRetryEffect] at hne
      split at hne
      · exact absurd rfl hne
      · split at hne <;> exact absurd rfl hne
    · rfl
  · exact absurd (by rw [(effect_does i s).frame.tx hp]) hne

/-- Settles O28: refusals, reads and register writes move no index, and an effect that moves one is that of an
instruction the table lists; a stimulus among them is the step itself. -/
theorem ringIndexWriters : Obligations.RingIndexWriters := by
  intro i s t h
  cases exec_answers h with
  | refused => exact ⟨absurd rfl, absurd rfl, absurd rfl, absurd rfl⟩
  | badRead => exact ⟨absurd rfl, absurd rfl, absurd rfl, absurd rfl⟩
  | read => exact ⟨absurd rfl, absurd rfl, absurd rfl, absurd rfl⟩
  | wrote a v r => rw [write_frame]; exact ⟨absurd rfl, absurd rfl, absurd rfl, absurd rfl⟩
  | ran j hij =>
    refine ⟨fun hne => ?_, fun hne => ?_, fun hne => ?_, fun hne => ?_⟩
    · rcases effect_rx_head hne with ⟨handled, b, rfl⟩ | hc
      · exact .inl ⟨handled, b, eq_of_issued hij rfl⟩
      · exact .inr (hij ▸ hc)
    · rcases effect_rx_tail hne with hc | ⟨handled, rfl⟩ | hc
      · exact .inl (hij.trans hc)
      · exact .inr (.inl ⟨handled, eq_of_issued hij rfl⟩)
      · exact .inr (.inr (hij ▸ hc))
    · rcases effect_tx_head hne with hc | ⟨cont, rfl⟩
      · exact .inl (hij ▸ hc)
      · exact .inr ⟨cont, eq_of_issued hij rfl⟩
    · obtain rfl := effect_tx_tail hne
      exact eq_of_issued hij rfl

end Sys2Proof.Machine
end

section
/-! Refusals: commands turned away before their body, and bad bus accesses (spec/20_memory.md R83 to R88,
spec/60_exceptions.md R290, R293). -/
namespace Sys2Proof.Machine

/-! ## Commands -/

theorem exec_command_blocked {i : Instr} (hi : isCommand i = true) {s : State} (hb : s.tx.blocked = true) :
    exec i s = .next (raise .busy s) := by
  rw [exec_command hi, hostCommand_busy hb]

/-- A word written to CMD, legal or not, is refused as a command is. -/
theorem exec_wr_cmd_blocked (w : Word) {s : State} (hb : s.tx.blocked = true) :
    exec (.wr 0x00 w) s = .next (raise .busy s) := by
  cases hd : decodeCommand w with
  | some i => rw [exec_wr_cmd hd, exec_command_blocked (isCommand_of_decodeCommand hd) hb]
  | none =>
    calc exec (.wr 0x00 w) s = issueWord w s := rfl
      _ = illegalCommand s := by rw [issueWord, hd]
      _ = .next (raise .busy s) := hostCommand_busy hb

theorem exec_gated_unconfigured {i : Instr} (hi : isGated i = true) {s : State} (hb : s.tx.blocked = false)
    (hc : s.configured = false) : exec i s = .next (raise .notConfigured s) := by
  rw [exec_command (isCommand_of_isGated hi), hi, hostCommand_gate hb hc]

/-- Settles O9: the BUSY test and the gate stand before the body of every command, and an illegal word is a command
without a gate. -/
theorem commandsRefusedBeforeTheirBody : Obligations.CommandsRefusedBeforeTheirBody := by
  intro i w s
  refine ⟨fun hb => ⟨fun hi => exec_command_blocked hi hb, exec_wr_cmd_blocked w hb⟩, fun hb hc hi => ?_⟩
  have hg : isGated i = true := by
    rcases hi with ⟨_, _, rfl⟩ | ⟨_, rfl⟩ | ⟨_, rfl⟩ | ⟨_, _, _, rfl⟩ <;> rfl
  exact exec_gated_unconfigured hg hb hc

/-! ## Bus accesses -/

theorem not_unmapped_addr (r : Reg) : ¬ unmappedAddress r.addr.toNat := by
  unfold unmappedAddress
  cases r <;> decide

theorem ofAddr_unmapped {a : Byte} (h : unmappedAddress a.toNat) : Reg.ofAddr a = none := by
  cases hr : Reg.ofAddr a with
  | none => rfl
  | some r => exact absurd (addr_of_ofAddr hr ▸ h) (not_unmapped_addr r)

theorem exec_rd_unmapped {a : Byte} (h : Reg.ofAddr a = none) (v : Word) (s : State) :
    exec (.rd a v) s = .next (readReturns 0 (raise .bus s)) := by
  simp only [exec, execRd, h]

theorem exec_wr_unmapped {a : Byte} (h : Reg.ofAddr a = none) (v : Word) (s : State) :
    exec (.wr a v) s = .next (raise .bus s) := by
  simp only [exec, execWr, h]

theorem exec_wr_readOnly {r : Reg} (h : r.kind = .readOnly) (v : Word) (s : State) :
    exec (.wr r.addr v) s = .next (raise .bus s) := by
  simp only [exec, execWr, ofAddr_addr, h]

theorem readOnlyAddresses_eq :
    readOnlyAddresses = (Reg.all.filter fun r => decide (r.kind = .readOnly)).map Reg.addr := by decide

/-- Settles O10: an unmapped address has no register, the addresses listed are those of the read-only registers, and an
access of another width is refused as it is taken from the inbox. -/
theorem badAccessesSetBusError : Obligations.BadAccessesSetBusError := by
  intro a v s
  refine ⟨fun hu => ?_, fun ha => ?_, fun rest hin => ?_, fun rest hin => ?_⟩
  · exact ⟨exec_rd_unmapped (ofAddr_unmapped hu) v s, exec_wr_unmapped (ofAddr_unmapped hu) v s⟩
  · rw [readOnlyAddresses_eq] at ha
    obtain ⟨r, hr, rfl⟩ := List.mem_map.mp ha
    exact exec_wr_readOnly (of_decide_eq_true (List.mem_filter.mp hr).2) v s
  · rw [step_of_inbox_cons hin]; rfl
  · rw [step_of_inbox_cons hin]; rfl

end Sys2Proof.Machine
end

section
/-! The two encoding tables (spec/30_encoding.md R113, R114, R117): what a row matches, why no two rows match one word,
and the decoder as a search of the tables. -/
namespace Sys2Proof

/-! ## The two parts of a word -/

/-- Bits 31:24, `op` or `ev` (30_encoding.md R112, R117). -/
def codeBits (w : Word) : Byte := w.extractLsb' 24 8

/-- Bits 23:0, operand fields and reserved bits (30_encoding.md R112, R117). -/
def operandBits (w : Word) : BitVec 24 := w.extractLsb' 0 24

theorem toNat_codeBits (w : Word) : (codeBits w).toNat = w.toNat / 2 ^ 24 := by
  have hw := w.isLt
  rw [codeBits, BitVec.extractLsb'_toNat, Nat.shiftRight_eq_div_pow]
  omega

theorem toNat_operandBits (w : Word) : (operandBits w).toNat = w.toNat % 2 ^ 24 := by
  rw [operandBits, BitVec.extractLsb'_toNat, Nat.shiftRight_zero]

theorem codeBits_and (v w : Word) : codeBits (v &&& w) = codeBits v &&& codeBits w := BitVec.extractLsb'_and

theorem operandBits_and (v w : Word) : operandBits (v &&& w) = operandBits v &&& operandBits w :=
  BitVec.extractLsb'_and

/-- A word is its two parts. -/
theorem word_eq_iff (v w : Word) : v = w ↔ codeBits v = codeBits w ∧ operandBits v = operandBits w := by
  simp only [← BitVec.toNat_inj, toNat_codeBits, toNat_operandBits]
  omega

theorem getLsbD_31 (w : Word) : w.getLsbD 31 = (codeBits w).getLsbD 7 := by
  simp [codeBits]

/-! ## What a row matches -/

/-- All rows of both tables. -/
def allRows : List Row := commandRows ++ stimulusRows

/-- A row fixes the whole of bits 31:24, and of bits 23:0 it fixes the reserved ones, to 0. -/
def Row.Shaped (r : Row) : Prop := codeBits r.mask = 0xFF ∧ operandBits r.pattern = 0

theorem shaped_of_mem : ∀ r ∈ allRows, r.Shaped := by
  unfold Row.Shaped
  decide

/-- A row matches the words with its code in bits 31:24 and 0 in its reserved bits. -/
theorem Row.Shaped.hits_iff {r : Row} (hr : r.Shaped) (w : Word) :
    r.hits w = true ↔ codeBits w = codeBits r.pattern ∧ operandBits w &&& operandBits r.mask = 0 := by
  obtain ⟨hmask, hpattern⟩ := hr
  have hall : codeBits w &&& 0xFF = codeBits w := BitVec.and_allOnes
  rw [Row.hits, beq_iff_eq, word_eq_iff, codeBits_and, operandBits_and, hmask, hpattern, hall]

theorem code_of_hits {r : Row} (hr : r ∈ allRows) {w : Word} (hw : r.hits w = true) :
    codeBits w = codeBits r.pattern := by
  obtain ⟨hcode, -⟩ := ((shaped_of_mem r hr).hits_iff w).mp hw
  exact hcode

/-- The codes of the rows are all different. -/
theorem codes_nodup : (allRows.map fun r => codeBits r.pattern).Nodup := by decide

/-- No two rows match one word (30_encoding.md R113). -/
theorem row_unique {r q : Row} (hr : r ∈ allRows) (hq : q ∈ allRows) {w : Word} (hrw : r.hits w = true)
    (hqw : q.hits w = true) : r = q :=
  List.inj_on_of_nodup_map codes_nodup hr hq ((code_of_hits hr hrw).symm.trans (code_of_hits hq hqw))

/-- Settles O3: the rows that match a word are different from one another, and any two of them are equal. -/
theorem atMostOneRowMatches : Obligations.AtMostOneRowMatches := by
  intro w
  change (allRows.filter fun r => r.hits w).length ≤ 1
  have hd : (allRows.filter fun r => r.hits w).Nodup := codes_nodup.of_map.filter _
  have heq : ∀ r ∈ allRows.filter (fun r => r.hits w), ∀ q ∈ allRows.filter (fun r => r.hits w), r = q := by
    intro r hr q hq
    obtain ⟨hra, hrw⟩ := List.mem_filter.mp hr
    obtain ⟨hqa, hqw⟩ := List.mem_filter.mp hq
    exact row_unique hra hqa hrw hqw
  by_contra hlen
  have h01 := heq _ (List.getElem_mem (n := 0) (by omega)) _ (List.getElem_mem (n := 1) (by omega))
  exact absurd (hd.getElem_inj_iff.mp h01) Nat.zero_ne_one

/-! ## The decoder as a search -/

/-- The first matching row of a table is any matching row of it. -/
theorem find_hits_iff {rows : List Row} (hsub : ∀ r ∈ rows, r ∈ allRows) (w : Word) (r : Row) :
    rows.find? (·.hits w) = some r ↔ r ∈ rows ∧ r.hits w = true := by
  constructor
  · intro h
    exact ⟨List.mem_of_find?_eq_some h, List.find?_some (p := fun r : Row => r.hits w) h⟩
  · rintro ⟨hr, hw⟩
    cases hf : rows.find? (·.hits w) with
    | none => exact absurd hw (List.find?_eq_none.mp hf r hr)
    | some q =>
      have hq : q.hits w = true := List.find?_some (p := fun r : Row => r.hits w) hf
      rw [row_unique (hsub q (List.mem_of_find?_eq_some hf)) (hsub r hr) hq hw]

theorem command_mem_allRows : ∀ r ∈ commandRows, r ∈ allRows := fun _ => List.mem_append_left _

theorem stimulus_mem_allRows : ∀ r ∈ stimulusRows, r ∈ allRows := fun _ => List.mem_append_right _

theorem decodeCommand_eq_some_iff (w : Word) (i : Instr) :
    decodeCommand w = some i ↔ ∃ r ∈ commandRows, r.hits w = true ∧ r.build w = i := by
  simp only [decodeCommand, Option.map_eq_some_iff, find_hits_iff command_mem_allRows, and_assoc]

theorem decodeStimulus_eq_some_iff (w : Word) (i : Instr) :
    decodeStimulus w = some i ↔ ∃ r ∈ stimulusRows, r.hits w = true ∧ r.build w = i := by
  simp only [decodeStimulus, Option.map_eq_some_iff, find_hits_iff stimulus_mem_allRows, and_assoc]

theorem decodeCommand_eq_none_iff (w : Word) : decodeCommand w = none ↔ ∀ r ∈ commandRows, r.hits w = false := by
  simp only [decodeCommand, Option.map_eq_none_iff, List.find?_eq_none, Bool.not_eq_true]

/-- Bit 31 tells the two tables apart (30_encoding.md R116). -/
theorem command_bit31 : ∀ r ∈ commandRows, (codeBits r.pattern).getLsbD 7 = false := by decide

theorem stimulus_bit31 : ∀ r ∈ stimulusRows, (codeBits r.pattern).getLsbD 7 = true := by decide

theorem bit31_of_hits {r : Row} (hr : r ∈ allRows) {w : Word} (hw : r.hits w = true) :
    w.getLsbD 31 = (codeBits r.pattern).getLsbD 7 := by
  rw [getLsbD_31, code_of_hits hr hw]

theorem decodeWord_of_command {w : Word} (h : w.getLsbD 31 = false) (i : Instr) :
    decodeWord w = .ok i ↔ decodeCommand w = some i := by
  cases hd : decodeCommand w <;> simp [decodeWord, -BitVec.getLsbD_eq_getElem, h, hd]

theorem decodeWord_of_stimulus {w : Word} (h : w.getLsbD 31 = true) (i : Instr) :
    decodeWord w = .ok i ↔ decodeStimulus w = some i := by
  cases hd : decodeStimulus w <;> simp [decodeWord, -BitVec.getLsbD_eq_getElem, h, hd]

/-- A word decodes to what a row that matches it builds from it (30_encoding.md R113). -/
theorem decodeWord_eq_ok_iff (w : Word) (i : Instr) :
    decodeWord w = .ok i ↔ ∃ r ∈ allRows, r.hits w = true ∧ r.build w = i := by
  constructor
  · intro h
    cases hb : w.getLsbD 31 with
    | false =>
      obtain ⟨r, hr, hi⟩ := (decodeCommand_eq_some_iff w i).mp ((decodeWord_of_command hb i).mp h)
      exact ⟨r, command_mem_allRows r hr, hi⟩
    | true =>
      obtain ⟨r, hr, hi⟩ := (decodeStimulus_eq_some_iff w i).mp ((decodeWord_of_stimulus hb i).mp h)
      exact ⟨r, stimulus_mem_allRows r hr, hi⟩
  · rintro ⟨r, hr, hw, hi⟩
    have hb := bit31_of_hits hr hw
    rcases List.mem_append.mp hr with hc | hs
    · rw [command_bit31 r hc] at hb
      exact (decodeWord_of_command hb i).mpr ((decodeCommand_eq_some_iff w i).mpr ⟨r, hc, hw, hi⟩)
    · rw [stimulus_bit31 r hs] at hb
      exact (decodeWord_of_stimulus hb i).mpr ((decodeStimulus_eq_some_iff w i).mpr ⟨r, hs, hw, hi⟩)

end Sys2Proof
end

section
/-! The encoder against the tables (spec/30_encoding.md R111, R112, R114, R117): the words a row matches are its code
with any operands in the bits it leaves free, and the fields `encode` writes there are the fields `build` reads. -/
namespace Sys2Proof

/-! ## Fields of an assembled word -/

theorem toNat_wordOf {op lo : Nat} (hop : op < 2 ^ 8) (hlo : lo < 2 ^ 24) :
    (wordOf op lo).toNat = op * 2 ^ 24 + lo := by
  rw [wordOf, BitVec.toNat_ofNat]
  omega

theorem codeBits_wordOf {op lo : Nat} (hop : op < 2 ^ 8) (hlo : lo < 2 ^ 24) :
    (codeBits (wordOf op lo)).toNat = op := by
  rw [toNat_codeBits, toNat_wordOf hop hlo]
  omega

theorem operandBits_wordOf {op lo : Nat} (hlo : lo < 2 ^ 24) : (operandBits (wordOf op lo)).toNat = lo := by
  rw [toNat_operandBits, wordOf, BitVec.toNat_ofNat]
  omega

theorem wordOf_parts (w : Word) : wordOf (codeBits w).toNat (operandBits w).toNat = w := by
  apply BitVec.eq_of_toNat_eq
  rw [toNat_wordOf (codeBits w).isLt (operandBits w).isLt, toNat_codeBits, toNat_operandBits]
  omega

/-- Bits 23:0 of an assembled word are those of its low part. -/
theorem getLsbD_wordOf (op lo : Nat) {j : Nat} (hj : j < 24) : (wordOf op lo).getLsbD j = lo.testBit j := by
  have hlow : (op * 2 ^ 24 + lo) % 2 ^ 24 = lo % 2 ^ 24 := by omega
  have hbit := congrArg (Nat.testBit · j) hlow
  simp only [Nat.testBit_mod_two_pow, hj, decide_true, Bool.true_and] at hbit
  rw [wordOf, BitVec.getLsbD_ofNat, hbit, decide_eq_true (show j < 32 by omega), Bool.true_and]

/-- An operand field of an assembled word, as a number. -/
theorem toNat_field (op lo : Nat) {k n : Nat} (h : k + n ≤ 24) :
    ((wordOf op lo).extractLsb' k n).toNat = lo / 2 ^ k % 2 ^ n := by
  apply Nat.eq_of_testBit_eq
  intro j
  rw [BitVec.testBit_toNat, BitVec.getLsbD_extractLsb', Nat.testBit_mod_two_pow, Nat.testBit_div_two_pow]
  by_cases hj : j < n
  · rw [getLsbD_wordOf op lo (by omega), Nat.add_comm k j]
  · simp [hj]

/-- A flag of an assembled word, as a number. -/
theorem toNat_flag (op lo : Nat) {k : Nat} (h : k < 24) :
    ((wordOf op lo).getLsbD k).toNat = lo / 2 ^ k % 2 := by
  rw [getLsbD_wordOf op lo h, Nat.toNat_testBit]

/-- A field holds the value its bits give. -/
theorem field_eq_iff (op lo : Nat) {k n : Nat} (h : k + n ≤ 24) (v : BitVec n) :
    (wordOf op lo).extractLsb' k n = v ↔ lo / 2 ^ k % 2 ^ n = v.toNat := by
  rw [← BitVec.toNat_inj, toNat_field op lo h]

theorem bool_eq_of_toNat_eq {a b : Bool} (h : a.toNat = b.toNat) : a = b := by
  revert a b
  decide

theorem flag_eq_iff (op lo : Nat) {k : Nat} (h : k < 24) (b : Bool) :
    (wordOf op lo).getLsbD k = b ↔ lo / 2 ^ k % 2 = b.toNat := by
  rw [← toNat_flag op lo h]
  exact ⟨congrArg Bool.toNat, bool_eq_of_toNat_eq⟩

/-! ## The words a row matches -/

/-- The `n` bits from bit `k` up of bits 23:0. -/
def bitBlock (k n : Nat) : BitVec 24 := (BitVec.allOnes n).setWidth 24 <<< k

theorem getLsbD_bitBlock (k n : Nat) {i : Nat} (hi : i < 24) :
    (bitBlock k n).getLsbD i = decide (k ≤ i ∧ i < k + n) := by
  rw [bitBlock, BitVec.getLsbD_shiftLeft, BitVec.getLsbD_setWidth, BitVec.getLsbD_allOnes, Bool.eq_iff_iff]
  simp only [Bool.and_eq_true, Bool.not_eq_true', decide_eq_true_eq, decide_eq_false_iff_not]
  omega

/-- A block of reserved bits is clear exactly if that field is 0. -/
theorem and_bitBlock_eq_zero_iff (x : BitVec 24) {k n : Nat} (h : k + n ≤ 24) :
    x &&& bitBlock k n = 0 ↔ x.toNat / 2 ^ k % 2 ^ n = 0 := by
  have hfield : x.toNat / 2 ^ k % 2 ^ n = 0 ↔ x.extractLsb' k n = 0 := by
    rw [← BitVec.toNat_inj, BitVec.extractLsb'_toNat, Nat.shiftRight_eq_div_pow]
    rfl
  rw [hfield]
  constructor
  · intro hx
    apply BitVec.eq_of_getLsbD_eq
    intro i hi
    have hki := congrArg (BitVec.getLsbD · (k + i)) hx
    simp only [BitVec.getLsbD_and, getLsbD_bitBlock k n (show k + i < 24 by omega)] at hki
    simpa [hi] using hki
  · intro hx
    apply BitVec.eq_of_getLsbD_eq
    intro i hi
    rw [BitVec.getLsbD_and, getLsbD_bitBlock k n hi]
    by_cases hb : k ≤ i ∧ i < k + n
    · have hxi := congrArg (BitVec.getLsbD · (i - k)) hx
      simp only [BitVec.getLsbD_extractLsb', Nat.add_sub_cancel' hb.1] at hxi
      simpa [show i - k < n by omega, hb] using hxi
    · simp [hb]

/-- A row that reserves two blocks of bits matches its code with any operands in the bits it leaves free. -/
theorem Row.Shaped.hits_iff_operands {r : Row} (hr : r.Shaped) {op k n j m : Nat}
    (hop : (codeBits r.pattern).toNat = op) (hmask : operandBits r.mask = bitBlock k n ||| bitBlock j m)
    (hk : k + n ≤ 24) (hj : j + m ≤ 24) (w : Word) :
    r.hits w = true ↔
      ∃ lo, lo < 2 ^ 24 ∧ lo / 2 ^ k % 2 ^ n = 0 ∧ lo / 2 ^ j % 2 ^ m = 0 ∧ w = wordOf op lo := by
  have hreserved : operandBits w &&& operandBits r.mask = 0 ↔
      (operandBits w).toNat / 2 ^ k % 2 ^ n = 0 ∧ (operandBits w).toNat / 2 ^ j % 2 ^ m = 0 := by
    rw [hmask, ← and_bitBlock_eq_zero_iff _ hk, ← and_bitBlock_eq_zero_iff _ hj, BitVec.and_or_distrib_left]
    exact BitVec.or_eq_zero_iff
  rw [hr.hits_iff, hreserved, ← BitVec.toNat_inj, hop]
  constructor
  · rintro ⟨hc, hlow, hmid⟩
    exact ⟨_, (operandBits w).isLt, hlow, hmid, by rw [← hc, wordOf_parts]⟩
  · rintro ⟨lo, hlo, hlow, hmid, rfl⟩
    rw [operandBits_wordOf hlo]
    exact ⟨codeBits_wordOf (hop ▸ (codeBits r.pattern).isLt) hlo, hlow, hmid⟩

/-- A row that reserves the bits from bit `k` up matches its code with any operands below bit `k`. -/
theorem Row.Shaped.hits_iff_low {r : Row} (hr : r.Shaped) {op k : Nat} (hop : (codeBits r.pattern).toNat = op)
    (hmask : operandBits r.mask = bitBlock k (24 - k)) (hk : k ≤ 24) (w : Word) :
    r.hits w = true ↔ ∃ lo, lo < 2 ^ k ∧ w = wordOf op lo := by
  have hnone : bitBlock 0 0 = 0#24 := by decide
  have hmask' : operandBits r.mask = bitBlock k (24 - k) ||| bitBlock 0 0 := by rw [hmask, hnone, BitVec.or_zero]
  rw [hr.hits_iff_operands hop hmask' (by omega) (by omega)]
  refine exists_congr fun lo => ?_
  have hpow : 2 ^ 24 = 2 ^ k * 2 ^ (24 - k) := by rw [← Nat.pow_add, Nat.add_sub_cancel' hk]
  have hlow : lo < 2 ^ 24 ∧ lo / 2 ^ k % 2 ^ (24 - k) = 0 ↔ lo < 2 ^ k := by
    rw [hpow]
    constructor
    · rintro ⟨hlt, hz⟩
      rw [Nat.mod_eq_of_lt (Nat.div_lt_of_lt_mul hlt), Nat.div_eq_zero_iff] at hz
      exact hz.resolve_left (Nat.two_pow_pos k).ne'
    · intro hlt
      exact ⟨Nat.lt_of_lt_of_le hlt (Nat.le_mul_of_pos_right _ (Nat.two_pow_pos _)), by
        rw [Nat.div_eq_of_lt hlt, Nat.zero_mod]⟩
  rw [← hlow]
  simp only [Nat.pow_zero, Nat.div_one, Nat.mod_one, true_and, and_assoc]

/-! ## From a word to the instruction and back -/

/-- Whatever word the row matches is the encoding of what the row builds from it. -/
def Row.EncodesBack (r : Row) : Prop := ∀ w, r.hits w = true → encode (r.build w) = .word w

/-- A row without operand fields matches its pattern only. -/
theorem encodesBack_fixed {r : Row} (hmask : r.mask = 0xFFFFFFFF) (h : encode (r.build r.pattern) = .word r.pattern) :
    r.EncodesBack := by
  intro w hw
  have hall : w &&& 0xFFFFFFFF = w := BitVec.and_allOnes
  rw [Row.hits, hmask, hall, beq_iff_eq] at hw
  rw [hw, h]

theorem Row.Shaped.encodesBack_low {r : Row} (hr : r.Shaped) (op k : Nat) (hop : (codeBits r.pattern).toNat = op)
    (hmask : operandBits r.mask = bitBlock k (24 - k)) (hk : k ≤ 24)
    (h : ∀ lo, lo < 2 ^ k → encode (r.build (wordOf op lo)) = .word (wordOf op lo)) : r.EncodesBack := by
  intro w hw
  obtain ⟨lo, hlo, rfl⟩ := (hr.hits_iff_low hop hmask hk w).mp hw
  exact h lo hlo

theorem word_congr {op lo lo' : Nat} (h : lo = lo') : Frame.word (wordOf op lo) = .word (wordOf op lo') := by rw [h]

theorem commandRows_encodeBack : ∀ r ∈ commandRows, r.EncodesBack := by
  simp only [commandRows, List.cons_append, List.nil_append, List.forall_mem_cons]
  refine ⟨encodesBack_fixed rfl rfl, encodesBack_fixed rfl rfl, encodesBack_fixed rfl rfl, encodesBack_fixed rfl rfl,
    ?putbyte, encodesBack_fixed rfl rfl, ?suspend, encodesBack_fixed rfl rfl,
    ?pulseStart, encodesBack_fixed rfl rfl, encodesBack_fixed rfl rfl, encodesBack_fixed rfl rfl,
    encodesBack_fixed rfl rfl, encodesBack_fixed rfl rfl, ?limitsEnable, encodesBack_fixed rfl rfl,
    ?computePwm, ?setSpeed, ?setState, encodesBack_fixed rfl rfl, encodesBack_fixed rfl rfl, ?coolantSet,
    encodesBack_fixed rfl rfl, ?delayMs, List.forall_mem_nil _⟩
  case putbyte | computePwm =>
    refine Row.Shaped.encodesBack_low ⟨rfl, rfl⟩ _ 8 rfl (by decide) (by decide) fun lo hlo => word_congr ?_
    simp (disch := decide) only [lowByte, toNat_field]
    omega
  case suspend | limitsEnable =>
    refine Row.Shaped.encodesBack_low ⟨rfl, rfl⟩ _ 1 rfl (by decide) (by decide) fun lo hlo => word_congr ?_
    simp (disch := decide) only [toNat_flag]
    omega
  case pulseStart =>
    refine Row.Shaped.encodesBack_low ⟨rfl, rfl⟩ _ 16 rfl (by decide) (by decide) fun lo hlo => word_congr ?_
    simp (disch := decide) only [lowByte, secondByte, toNat_field]
    omega
  case setSpeed =>
    refine Row.Shaped.encodesBack_low ⟨rfl, rfl⟩ _ 16 rfl (by decide) (by decide) fun lo hlo => word_congr ?_
    simp (disch := decide) only [lowHalf, toNat_field]
    omega
  case setState =>
    refine Row.Shaped.encodesBack_low ⟨rfl, rfl⟩ _ 10 rfl (by decide) (by decide) fun lo hlo => word_congr ?_
    simp (disch := decide) only [lowByte, toNat_field, toNat_flag]
    omega
  case coolantSet =>
    refine Row.Shaped.encodesBack_low ⟨rfl, rfl⟩ _ 2 rfl (by decide) (by decide) fun lo hlo => word_congr ?_
    simp (disch := decide) only [toNat_flag]
    omega
  case delayMs =>
    refine Row.Shaped.encodesBack_low ⟨rfl, rfl⟩ _ 17 rfl (by decide) (by decide) fun lo hlo => word_congr ?_
    simp (disch := decide) only [lowHalf, toNat_field, toNat_flag]
    omega

theorem stimulusRows_encodeBack : ∀ r ∈ stimulusRows, r.EncodesBack := by
  simp only [stimulusRows, List.cons_append, List.nil_append, List.forall_mem_cons]
  refine ⟨?rxArrive, encodesBack_fixed rfl rfl, encodesBack_fixed rfl rfl, ?putRetry, encodesBack_fixed rfl rfl,
    encodesBack_fixed rfl rfl, ?limIn, ?ctlIn, ?prbIn, encodesBack_fixed rfl rfl, encodesBack_fixed rfl rfl,
    List.forall_mem_nil _⟩
  case rxArrive =>
    refine Row.Shaped.encodesBack_low ⟨rfl, rfl⟩ _ 9 rfl (by decide) (by decide) fun lo hlo => word_congr ?_
    simp (disch := decide) only [lowByte, toNat_field, toNat_flag]
    omega
  case putRetry =>
    refine Row.Shaped.encodesBack_low ⟨rfl, rfl⟩ _ 1 rfl (by decide) (by decide) fun lo hlo => word_congr ?_
    simp (disch := decide) only [toNat_flag]
    omega
  case limIn =>
    refine Row.Shaped.encodesBack_low ⟨rfl, rfl⟩ _ 16 rfl (by decide) (by decide) fun lo hlo => word_congr ?_
    simp (disch := decide) only [lowByte, secondByte, toNat_field]
    omega
  case ctlIn =>
    intro w hw
    obtain ⟨lo, hlo, htop, hgap, rfl⟩ := (Row.Shaped.hits_iff_operands (k := 12) (n := 12) (j := 4) (m := 4)
      ⟨rfl, rfl⟩ rfl (by decide) (by decide) (by decide) w).mp hw
    refine word_congr ?_
    simp (disch := decide) only [toNat_field]
    omega
  case prbIn =>
    intro w hw
    obtain ⟨lo, hlo, htop, hgap, rfl⟩ := (Row.Shaped.hits_iff_operands (k := 9) (n := 15) (j := 1) (m := 7)
      ⟨rfl, rfl⟩ rfl (by decide) (by decide) (by decide) w).mp hw
    refine word_congr ?_
    simp (disch := decide) only [toNat_flag]
    omega

/-! ## Bus words -/

theorem toNat_busOf (write : Bool) (addr : Byte) (wdata : Word) :
    (busOf write addr wdata).toNat = write.toNat * 2 ^ 40 + addr.toNat * 2 ^ 32 + wdata.toNat := by
  have hwrite := write.toNat_lt
  have haddr := addr.isLt
  have hwdata := wdata.isLt
  rw [busOf, BitVec.toNat_ofNat]
  omega

theorem toNat_busFlag (w : BusWord) : (w.getLsbD 40).toNat = w.toNat / 2 ^ 40 % 2 := Nat.toNat_testBit _ _

theorem toNat_busAddr (w : BusWord) : (w.extractLsb' 32 8).toNat = w.toNat / 2 ^ 32 % 2 ^ 8 := by
  rw [BitVec.extractLsb'_toNat, Nat.shiftRight_eq_div_pow]

theorem toNat_busData (w : BusWord) : (w.extractLsb' 0 32).toNat = w.toNat % 2 ^ 32 := by
  rw [BitVec.extractLsb'_toNat, Nat.shiftRight_zero]

theorem busOf_fields (w : BusWord) : busOf (w.getLsbD 40) (w.extractLsb' 32 8) (w.extractLsb' 0 32) = w := by
  have hw := w.isLt
  apply BitVec.eq_of_toNat_eq
  rw [toNat_busOf, toNat_busFlag, toNat_busAddr, toNat_busData]
  omega

theorem encode_decodeBus (w : BusWord) : encode (decodeBus w) = .bus w := by
  have hw := busOf_fields w
  unfold decodeBus
  cases hb : w.getLsbD 40 <;> rw [hb] at hw <;> exact congrArg Frame.bus hw

theorem decodeBus_busOf (write : Bool) (addr : Byte) (wdata : Word) :
    decodeBus (busOf write addr wdata) = if write then .wr addr wdata else .rd addr wdata := by
  have hwritelt := write.toNat_lt
  have haddrlt := addr.isLt
  have hwdatalt := wdata.isLt
  have hwrite : (busOf write addr wdata).getLsbD 40 = write := by
    apply bool_eq_of_toNat_eq
    rw [toNat_busFlag, toNat_busOf]
    omega
  have haddr : (busOf write addr wdata).extractLsb' 32 8 = addr := by
    apply BitVec.eq_of_toNat_eq
    rw [toNat_busAddr, toNat_busOf]
    omega
  have hwdata : (busOf write addr wdata).extractLsb' 0 32 = wdata := by
    apply BitVec.eq_of_toNat_eq
    rw [toNat_busData, toNat_busOf]
    omega
  rw [decodeBus, hwrite, haddr, hwdata]

/-- Settles O2: a bus word is its three fields, and a word that decodes is what its row's fields make it. -/
theorem encodeInvertsDecode : Obligations.EncodeInvertsDecode := by
  intro f i hdec
  cases f with
  | bus w =>
    injection hdec with hi
    rw [← hi, encode_decodeBus]
  | word w =>
    obtain ⟨r, hr, hw, rfl⟩ := (decodeWord_eq_ok_iff w i).mp hdec
    rcases List.mem_append.mp hr with hc | hs
    · exact commandRows_encodeBack r hc w hw
    · exact stimulusRows_encodeBack r hs w hw

end Sys2Proof
end

section
/-! Decoding what the encoder writes, command words at CMD, and illegal words (spec/30_encoding.md R111 to R118,
R120). -/
namespace Sys2Proof
open Sys2Proof.Machine

/-! ## From an instruction to its frame and back -/

/-- A word decodes to what row `n` of the tables builds, if that row matches it. -/
theorem decode_of_hits (n : Nat) {r : Row} (hr : allRows[n]? = some r) {w : Word} (hw : r.hits w = true) :
    decode (.word w) = .ok (r.build w) :=
  (decodeWord_eq_ok_iff w _).mpr ⟨r, List.mem_of_getElem? hr, hw, rfl⟩

/-- A row's code with operands below bit `k`, where all free bits are, decodes to what the row builds. -/
theorem decode_of_low (n : Nat) {r : Row} (hr : allRows[n]? = some r) {op k lo : Nat}
    (hop : (codeBits r.pattern).toNat = op) (hmask : operandBits r.mask = bitBlock k (24 - k)) (hk : k ≤ 24)
    (hlo : lo < 2 ^ k) : decode (.word (wordOf op lo)) = .ok (r.build (wordOf op lo)) :=
  decode_of_hits n hr
    (((shaped_of_mem r (List.mem_of_getElem? hr)).hits_iff_low hop hmask hk _).mpr ⟨lo, hlo, rfl⟩)

theorem decode_encode_pulseStart (dir step : Byte) :
    decode (encode (.pulseStart dir step)) = .ok (.pulseStart dir step) := by
  have hdir := dir.isLt
  have hstep := step.isLt
  refine (decode_of_low 8 rfl rfl (k := 16) (by decide) (by decide) (by omega)).trans ?_
  simp (disch := decide) only [lowByte, secondByte, Except.ok.injEq, Instr.pulseStart.injEq, field_eq_iff]
  omega

theorem decode_encode_setState (ccw enable : Bool) (ovr : Byte) :
    decode (encode (.setState ccw enable ovr)) = .ok (.setState ccw enable ovr) := by
  have hccw := ccw.toNat_lt
  have henable := enable.toNat_lt
  have hovr := ovr.isLt
  refine (decode_of_low 18 rfl rfl (k := 10) (by decide) (by decide) (by omega)).trans ?_
  simp (disch := decide) only [lowByte, Except.ok.injEq, Instr.setState.injEq, field_eq_iff, flag_eq_iff]
  omega

theorem decode_encode_delayMs (cb : Bool) (ms : BitVec 16) :
    decode (encode (.delayMs cb ms)) = .ok (.delayMs cb ms) := by
  have hcb := cb.toNat_lt
  have hms := ms.isLt
  refine (decode_of_low 23 rfl rfl (k := 17) (by decide) (by decide) (by omega)).trans ?_
  simp (disch := decide) only [lowHalf, Except.ok.injEq, Instr.delayMs.injEq, field_eq_iff, flag_eq_iff]
  omega

theorem decode_encode_rxArrive (handled : Bool) (b : Byte) :
    decode (encode (.rxArrive handled b)) = .ok (.rxArrive handled b) := by
  have hhandled := handled.toNat_lt
  have hb := b.isLt
  refine (decode_of_low 24 rfl rfl (k := 9) (by decide) (by decide) (by omega)).trans ?_
  simp (disch := decide) only [lowByte, Except.ok.injEq, Instr.rxArrive.injEq, field_eq_iff, flag_eq_iff]
  omega

theorem decode_encode_limIn (float level : Byte) :
    decode (encode (.limIn float level)) = .ok (.limIn float level) := by
  have hfloat := float.isLt
  have hlevel := level.isLt
  refine (decode_of_low 30 rfl rfl (k := 16) (by decide) (by decide) (by omega)).trans ?_
  simp (disch := decide) only [lowByte, secondByte, Except.ok.injEq, Instr.limIn.injEq, field_eq_iff]
  omega

theorem decode_encode_ctlIn (float level : BitVec 4) :
    decode (encode (.ctlIn float level)) = .ok (.ctlIn float level) := by
  have hfloat := float.isLt
  have hlevel := level.isLt
  refine (decode_of_hits 31 rfl ((Row.Shaped.hits_iff_operands (k := 12) (n := 12) (j := 4) (m := 4)
    ⟨rfl, rfl⟩ rfl (by decide) (by decide) (by decide) _).mpr ⟨_, ?_, ?_, ?_, rfl⟩)).trans ?_
  · omega
  · omega
  · omega
  · simp (disch := decide) only [Except.ok.injEq, Instr.ctlIn.injEq, field_eq_iff]
    omega

/-- Settles O1: a frame has the fields of its instruction, and the code in it leads to the row that reads them. -/
theorem decodeInvertsEncode : Obligations.DecodeInvertsEncode := by
  intro i
  cases i with
  | rd addr wdata => exact congrArg Except.ok (decodeBus_busOf false addr wdata)
  | wr addr wdata => exact congrArg Except.ok (decodeBus_busOf true addr wdata)
  | suspend f | limitsEnable f | putRetry f => cases f <;> rfl
  | coolantSet a b | prbIn a b => cases a <;> cases b <;> rfl
  | putbyte c =>
    refine (decode_of_low 4 rfl rfl (k := 8) (by decide) (by decide) c.isLt).trans ?_
    simp (disch := decide) only [lowByte, Except.ok.injEq, Instr.putbyte.injEq, field_eq_iff]
    omega
  | computePwm ovr =>
    refine (decode_of_low 16 rfl rfl (k := 8) (by decide) (by decide) ovr.isLt).trans ?_
    simp (disch := decide) only [lowByte, Except.ok.injEq, Instr.computePwm.injEq, field_eq_iff]
    omega
  | setSpeed duty =>
    refine (decode_of_low 17 rfl rfl (k := 16) (by decide) (by decide) duty.isLt).trans ?_
    simp (disch := decide) only [lowHalf, Except.ok.injEq, Instr.setSpeed.injEq, field_eq_iff]
    omega
  | pulseStart dir step => exact decode_encode_pulseStart dir step
  | setState ccw enable ovr => exact decode_encode_setState ccw enable ovr
  | delayMs cb ms => exact decode_encode_delayMs cb ms
  | rxArrive handled b => exact decode_encode_rxArrive handled b
  | limIn float level => exact decode_encode_limIn float level
  | ctlIn float level => exact decode_encode_ctlIn float level
  | _ => rfl

/-- Settles O4 by running the decoder on each word. -/
theorem writtenOutWordsDecode : Obligations.WrittenOutWordsDecode :=
  ⟨rfl, rfl, rfl, rfl, rfl, rfl, rfl, rfl, rfl, rfl⟩

/-! ## Words written to CMD -/

theorem stimulus_not_command : ∀ r ∈ stimulusRows, ∀ w, isCommand (r.build w) = false := by
  simp [stimulusRows, isCommand]

/-- The word of a command decodes to it as a word written to CMD. -/
theorem decodeCommand_of_encode {i : Instr} (hi : isCommand i = true) {w : Word} (hw : encode i = .word w) :
    decodeCommand w = some i := by
  have hdec : decodeWord w = .ok i := by
    have hi := decodeInvertsEncode i
    rwa [hw] at hi
  obtain ⟨r, hr, hits, rfl⟩ := (decodeWord_eq_ok_iff w i).mp hdec
  rcases List.mem_append.mp hr with hc | hs
  · exact (decodeCommand_eq_some_iff w _).mpr ⟨r, hc, hits, rfl⟩
  · rw [stimulus_not_command r hs w] at hi
    cases hi

/-- Settles O7: CMD runs the command that the word decodes to. -/
theorem writeToCmdRunsCommand : Obligations.WriteToCmdRunsCommand := by
  intro i w s hi hw
  exact exec_wr_cmd (decodeCommand_of_encode hi hw) s

/-! ## Illegal words -/

/-- The reserved bits of an assigned `op` (30_encoding.md R112) are those its row fixes below the code. -/
theorem reservedBits_of_row :
    ∀ r ∈ commandRows, reservedBits (codeBits r.pattern).toNat = some (r.mask &&& 0x00FFFFFF) := by decide

/-- An `op` with reserved bits is assigned. -/
theorem row_of_reservedBits {op : Nat} {m : Word} (h : reservedBits op = some m) :
    ∃ r ∈ commandRows, (codeBits r.pattern).toNat = op := by
  have hmem : op ∈ commandRows.map fun r => (codeBits r.pattern).toNat := by
    by_contra hop
    simp [commandRows, codeBits] at hop
    simp [reservedBits, hop] at h
  exact List.mem_map.mp hmem

theorem reserved_clear_iff (w m : Word) : w &&& (m &&& 0x00FFFFFF) = 0 ↔ operandBits w &&& operandBits m = 0 := by
  have hcode : codeBits (0x00FFFFFF : Word) = 0#8 := by decide
  have hall : operandBits m &&& operandBits 0x00FFFFFF = operandBits m := BitVec.and_allOnes
  rw [word_eq_iff, codeBits_and, codeBits_and, operandBits_and, operandBits_and, hcode, hall, BitVec.and_zero,
    BitVec.and_zero]
  exact and_iff_right rfl

/-- A command word is illegal exactly if no row has its `op`, or the row that has it finds a reserved bit set. -/
theorem decodeCommand_eq_none_iff_reserved (w : Word) :
    decodeCommand w = none ↔ ∀ m, reservedBits (w.toNat / 2 ^ 24) = some m → w &&& m ≠ 0 := by
  rw [decodeCommand_eq_none_iff, ← toNat_codeBits]
  constructor
  · intro hnone m hm hclear
    obtain ⟨r, hr, hop⟩ := row_of_reservedBits hm
    obtain rfl : r.mask &&& 0x00FFFFFF = m := by
      rw [← hop, reservedBits_of_row r hr] at hm
      exact Option.some.inj hm
    have hits := ((shaped_of_mem r (command_mem_allRows r hr)).hits_iff w).mpr
      ⟨(BitVec.eq_of_toNat_eq hop).symm, (reserved_clear_iff w r.mask).mp hclear⟩
    rw [hnone r hr] at hits
    cases hits
  · intro hset r hr
    by_contra hits
    obtain ⟨hop, hclear⟩ := ((shaped_of_mem r (command_mem_allRows r hr)).hits_iff w).mp (by simpa using hits)
    exact hset _ (hop ▸ reservedBits_of_row r hr) ((reserved_clear_iff w r.mask).mpr hclear)

/-- An illegal word written to CMD, no PUTBYTE waiting, raises ERR.ILLEGAL_CMD. -/
theorem exec_wr_cmd_illegal {w : Word} (hw : decodeCommand w = none) {s : State} (hb : s.tx.blocked = false) :
    exec (.wr 0x00 w) s = .next (raise .illegalCmd s) := by
  calc exec (.wr 0x00 w) s = issueWord w s := rfl
    _ = illegalCommand s := by rw [issueWord, hw]
    _ = .next (raise .illegalCmd s) := hostCommand_runs hb nofun

/-- Settles O5: a command's row matches if no reserved bit is set, and a word without a row is refused. -/
theorem illegalWordsRefused : Obligations.IllegalWordsRefused :=
  fun w _ hb => ⟨decodeCommand_eq_none_iff_reserved w, fun hw => exec_wr_cmd_illegal hw hb⟩

end Sys2Proof
end

section
/-! The transmitted stream (spec/40_serial.md R155): what every effect adds to the line, the transmitter register and
the buffer taken together. -/
namespace Sys2Proof.Machine

theorem outStream_congr {s t : State} (hpar : t.par = s.par) (htx : t.tx = s.tx) (htdr : t.tdr = s.tdr)
    (hfull : t.tdrFull = s.tdrFull) (hline : t.txLine = s.txLine) : outStream t = outStream s := by
  unfold outStream txBuffered
  rw [hpar, htx, htdr, hfull, hline]

theorem txBuffered_of_empty {s : State} (h : s.tx.head = s.tx.tail) : txBuffered s = [] := by
  unfold txBuffered
  rw [h]
  exact window_empty s.tx.data s.par.txBits s.tx.tail

/-- A byte put into a buffer that is not full goes to the end of the stream. -/
theorem outStream_txEnqueue {s : State} (hb : BufferInv s) (hf : txFull s = false) (c : Byte) :
    outStream (txEnqueue c s) = outStream s ++ [c] := by
  have hspace : advance s.par.txMask s.tx.head ≠ s.tx.tail := by simpa [txFull] using hf
  have hpush : txBuffered (txEnqueue c s) = txBuffered s ++ [c] :=
    window_push (k := s.par.txBits) hb.tx_wf hb.tx_head hb.tx_tail hspace c
  unfold outStream
  rw [hpush, ← List.append_assoc]
  rfl

theorem delivered_putbyte {s : State} (hb : s.tx.blocked = false) (c : Byte) :
    delivered (.putbyte c) s = if !(txEmpty s && !s.tdrFull) && txFull s then [] else [c] := by
  simp only [delivered, issued, hb, Bool.false_or]

theorem outStream_putbyteBody {s : State} (hb : BufferInv s) (hw : s.tx.blocked = false) (c : Byte) :
    outStream (putbyteBody c s) = outStream s ++ delivered (.putbyte c) s := by
  rw [delivered_putbyte hw]
  unfold putbyteBody
  split
  · next hdirect =>
    simp only [Bool.and_eq_true, Bool.not_eq_true', txEmpty_iff] at hdirect
    obtain ⟨hempty, hfull⟩ := hdirect
    calc outStream (returns 1 (sendDirect c s)) = s.txLine ++ [c] ++ txBuffered s := rfl
      _ = _ := by simp [outStream, txBuffered_of_empty hempty, hfull, txEmpty, hempty]
  · next hdirect =>
    split
    · next hf => rw [if_pos (by simp [hdirect, hf]), List.append_nil]; rfl
    · next hf => rw [if_neg (by simp [hf])]; exact outStream_txEnqueue hb (by simpa using hf) c

theorem outStream_putRetryEffect {s : State} (hb : BufferInv s) (hw : s.tx.blocked = true) (cont : Bool) :
    outStream (putRetryEffect cont s) = outStream s ++ delivered (.putRetry cont) s := by
  simp only [delivered, issued, hw, Bool.true_and]
  unfold putRetryEffect
  split
  · next hf => exact outStream_txEnqueue hb (by simpa using hf) s.tx.pend
  · rw [List.append_nil]
    split <;> rfl

/-- The handler moves the oldest byte of the buffer to the transmitter register. -/
theorem txBuffered_txIrqEffect {s : State} (hb : BufferInv s) (hne : s.tx.head ≠ s.tx.tail) :
    txBuffered s = (txIrqEffect s).tdr :: txBuffered (txIrqEffect s) ∧ (txIrqEffect s).tdrFull = true := by
  have he : txEmpty s = false := by simpa [txEmpty] using hne
  rw [txIrqEffect, he]
  exact ⟨window_pop (k := s.par.txBits) s.tx.data hb.tx_head hb.tx_tail hne, rfl⟩

theorem outStream_txIrqEffect {s : State} (hb : BufferInv s) (hfull : s.tdrFull = false) :
    outStream (txIrqEffect s) = outStream s := by
  by_cases he : s.tx.head = s.tx.tail
  · rw [txIrqEffect, (txEmpty_iff s).mpr he]
    rfl
  · obtain ⟨hbuf, hfull'⟩ := txBuffered_txIrqEffect hb he
    have hline : (txIrqEffect s).txLine = s.txLine := (effect_does .txIrq s).frame.txLine nofun
    simp [outStream, hfull, hfull', hbuf, hline]

theorem outStream_lineTakeEffect {s : State} (hfull : s.tdrFull = true) :
    outStream (lineTakeEffect s) = outStream s := by
  calc outStream (lineTakeEffect s) = s.txLine ++ [s.tdr] ++ [] ++ txBuffered s := rfl
    _ = outStream s := by simp [outStream, hfull]

theorem InFrame.register {i : Instr} {s t : State} (h : InFrame i s t) (ht : area i ≠ .transmit)
    (hl : area i ≠ .line) : t.tdr = s.tdr ∧ t.tdrFull = s.tdrFull := by
  unfold InFrame at h
  split at h
  case h_2 he => exact absurd he ht
  case h_3 he => exact absurd he hl
  all_goals exact ⟨(congrArg State.tdr h :), (congrArg State.tdrFull h :)⟩

/-- Only PUTBYTE and @PUT_RETRY deliver. -/
theorem delivered_of_area {i : Instr} (hi : issued i = i) (ha : area i ≠ .transmit) (s : State) :
    delivered i s = [] := by
  rw [delivered, hi]
  cases i with
  | putbyte | putRetry => exact absurd rfl ha
  | _ => rfl

/-- The effect of an enabled stimulus, or of a command while no PUTBYTE waits, adds what it delivers. -/
theorem outStream_effect {i : Instr} {s : State} (hb : BufferInv s) (hi : issued i = i) (hen : enabled i s = true)
    (hw : isCommand i = true → s.tx.blocked = false) : outStream (effect i s) = outStream s ++ delivered i s := by
  by_cases ht : area i = .transmit
  · rcases area_eq_transmit ht with ⟨c, rfl⟩ | ⟨cont, rfl⟩ | rfl
    · exact outStream_putbyteBody hb (hw rfl) c
    · exact outStream_putRetryEffect hb hen cont
    · simp only [enabled, Bool.and_eq_true, Bool.not_eq_true'] at hen
      exact (outStream_txIrqEffect hb hen.2).trans (List.append_nil _).symm
  · rw [delivered_of_area hi ht, List.append_nil]
    by_cases hl : area i = .line
    · obtain rfl := area_eq_line hl
      exact outStream_lineTakeEffect hen
    · have hf := (effect_does i s).frame
      obtain ⟨htdr, hfull⟩ := hf.register ht hl
      exact outStream_congr hf.par (hf.tx ht) htdr hfull (hf.txLine hl)

end Sys2Proof.Machine
end

section
/-! WRITESTRING and WRITEBYTES (spec/40_serial.md R146, R147): what a turn of the HOST or of another agent does to the
bytes still to be sent. -/
namespace Sys2Proof.Machine

/-! ## The bytes they put -/

theorem writeBytes_todo_length (text : List Byte) (len : Nat) (past : Nat → Byte) :
    (writeBytes text len past).todo.length = len := by
  rw [writeBytes, List.length_map, List.length_range]

theorem writeBytes_todo_getElem? (text : List Byte) {len i : Nat} (past : Nat → Byte) (hi : i < len)
    (ht : i < text.length) : (writeBytes text len past).todo[i]? = text[i]? := by
  simp [writeBytes, hi, ht]

/-! ## A wait -/

theorem parked_of_blocked {s : State} (h : s.tx.blocked = true) : parked s = [s.tx.pend] := if_pos h

theorem parked_of_unblocked {s : State} (h : s.tx.blocked = false) : parked s = [] := by
  rw [parked, h]
  rfl

/-- The bytes of a run that are neither in the transmitted stream nor aborted: the one that waits, then those whose
PutAndWait has not begun. -/
def pending (r : PutRun) (s : State) : List Byte := parked s ++ r.todo

/-- How often CB_BLOCK(0) was delivered, once for each aborted byte. -/
def aborts (s : State) : Nat := s.cbTrace.count (.block false)

/-- What holds before every turn: a PUTBYTE waits exactly while the HOST is in a wait that the next read of RESULT does
not end. -/
structure PutInv (r : PutRun) (s : State) : Prop where
  buffers : BufferInv s
  blocked_iff : s.tx.blocked = true ↔ r.waiting = true ∧ s.result = 2

/-- What turns do: ERR.BUSY stays as it is, the stream grows by bytes that were pending, in order, and of the pending
ones as many go missing as CB_BLOCK(0) is delivered, none while ERR.TX_ABORT stays clear. -/
structure PutProgress (r : PutRun) (s : State) (r' : PutRun) (t : State) : Prop where
  busy : t.err.getLsbD 1 = s.err.getLsbD 1
  abort_sticky : s.err.getLsbD 9 = true → t.err.getLsbD 9 = true
  sent : ∃ sent, outStream t = outStream s ++ sent ∧ (sent ++ pending r' t).Sublist (pending r s) ∧
    (sent ++ pending r' t).length + aborts t = (pending r s).length + aborts s
  none_missing : t.err.getLsbD 9 = false → aborts t = aborts s

/-- Turns that leave stream, pending bytes, errors and trace alone. -/
theorem PutProgress.unchanged {r r' : PutRun} {s t : State} (hout : outStream t = outStream s)
    (hpend : pending r' t = pending r s) (herr : t.err = s.err) (htrace : t.cbTrace = s.cbTrace) :
    PutProgress r s r' t where
  busy := by rw [herr]
  abort_sticky := by rw [herr]; exact id
  sent := ⟨[], by rw [hout, List.append_nil], by rw [hpend]; exact List.Sublist.refl _, by
    rw [hpend, aborts, aborts, htrace]; rfl⟩
  none_missing _ := by rw [aborts, aborts, htrace]

theorem PutProgress.trans {r r' r'' : PutRun} {s t u : State} (h : PutProgress r s r' t)
    (h' : PutProgress r' t r'' u) : PutProgress r s r'' u := by
  obtain ⟨sent, hout, hsub, hlen⟩ := h.sent
  obtain ⟨sent', hout', hsub', hlen'⟩ := h'.sent
  refine ⟨h'.busy.trans h.busy, h'.abort_sticky ∘ h.abort_sticky, ⟨sent ++ sent', ?_, ?_, ?_⟩, fun hu => ?_⟩
  · rw [hout', hout, List.append_assoc]
  · rw [List.append_assoc]
    exact (hsub'.append_left sent).trans hsub
  · simp only [List.length_append] at hlen hlen' ⊢
    omega
  · have ht : t.err.getLsbD 9 = false := by
      cases hb : t.err.getLsbD 9 with
      | false => rfl
      | true => rw [h'.abort_sticky hb] at hu; cases hu
    exact (h'.none_missing hu).trans (h.none_missing ht)

/-- A byte put, none waiting, is delivered or waits. -/
theorem delivered_append_parked (b : Byte) {s : State} (h : s.tx.blocked = false) :
    delivered (.putbyte b) s ++ parked (putbyteBody b s) = [b] := by
  have hsent : ∀ u : State, u.tx.blocked = false → [b] ++ parked u = [b] := by
    intro u hu
    rw [parked_of_unblocked hu, List.append_nil]
  cases hd : txEmpty s && !s.tdrFull with
  | true =>
    simp only [delivered_putbyte h, putbyteBody, hd]
    exact hsent _ h
  | false =>
    cases hf : txFull s <;> simp only [delivered_putbyte h, putbyteBody, hd, hf]
    · exact hsent _ h
    · rfl

theorem putbyteBody_cbTrace (b : Byte) (s : State) : (putbyteBody b s).cbTrace = s.cbTrace := by
  unfold putbyteBody
  split
  · rfl
  · split <;> rfl

theorem PutInv.unblocked {todo : List Byte} {s : State} (h : PutInv { todo := todo, waiting := false } s) :
    s.tx.blocked = false := by
  cases hb : s.tx.blocked with
  | false => rfl
  | true => exact absurd (h.blocked_iff.mp hb).1 Bool.false_ne_true

/-- A PutAndWait begins: the byte is delivered or waits. -/
theorem put_turn {b : Byte} {todo : List Byte} {s : State} (h : PutInv { todo := b :: todo, waiting := false } s) :
    PutInv { todo := todo, waiting := true } (putbyteBody b s) ∧
      PutProgress { todo := b :: todo, waiting := false } s { todo := todo, waiting := true } (putbyteBody b s) := by
  have hw := h.unblocked
  obtain ⟨hres, herr⟩ := putbyteBody_result b hw
  have hbytes : delivered (.putbyte b) s ++ pending { todo := todo, waiting := true } (putbyteBody b s) =
      pending { todo := b :: todo, waiting := false } s := by
    rw [pending, pending, parked_of_unblocked hw, ← List.append_assoc, delivered_append_parked b hw]
    rfl
  have htrace : aborts (putbyteBody b s) = aborts s := by rw [aborts, putbyteBody_cbTrace, aborts]
  have hwait : (putbyteBody b s).tx.blocked = true ↔ true = true ∧ (putbyteBody b s).result = 2 :=
    hres.symm.trans (iff_and_self.mpr fun _ => rfl)
  exact ⟨⟨effect_keeps_buffers (.putbyte b) h.buffers, hwait⟩, by rw [herr], by rw [herr]; exact id,
    ⟨_, outStream_putbyteBody h.buffers hw b, by rw [hbytes], by rw [hbytes, htrace]⟩, fun _ => htrace⟩

/-- A read of RESULT ends the wait unless RESULT is 2. -/
theorem read_turn {todo : List Byte} {s : State} (h : PutInv { todo := todo, waiting := true } s) :
    PutInv { todo := todo, waiting := s.result == 2 } { s with rdata := s.result } ∧
      PutProgress { todo := todo, waiting := true } s { todo := todo, waiting := s.result == 2 }
        { s with rdata := s.result } := by
  refine ⟨⟨h.buffers.congr rfl rfl rfl rfl, ?_⟩, .unchanged rfl rfl rfl rfl⟩
  have hb := h.blocked_iff
  simp only [true_and] at hb
  simpa using hb

theorem isCommand_of_stimulus {i : Instr} (hi : isHostStep i = false) : isCommand i = false := by
  cases i with
  | rd | wr => rfl
  | _ => exact hi

/-- A step of another agent delivers the waiting byte, aborts it, or leaves it waiting. -/
theorem stimulus_turn {i : Instr} (hi : isHostStep i = false) {r : PutRun} {s t : State} (h : PutInv r s)
    (hx : exec i s = .next t) : PutInv r t ∧ PutProgress r s r t := by
  obtain ⟨hen, heff⟩ := exec_stimulus hi hx
  have hout : outStream t = outStream s ++ delivered i s := by
    rw [heff]
    exact outStream_effect h.buffers (issued_of_stimulus hi) hen
      fun hc => absurd hc (by rw [isCommand_of_stimulus hi]; exact Bool.false_ne_true)
  have hbuf := exec_keeps_buffers h.buffers hx
  obtain ⟨hbusy, hsticky, ⟨hblocked, hresult, hpend, hdel, htrace⟩ | ⟨hs, ht, hresult, hend⟩⟩ :=
    stimulus_wait hi hx
  · have hparked : parked t = parked s := by rw [parked, parked, hblocked, hpend]
    have hinv : PutInv r t := ⟨hbuf, by rw [hblocked, hresult]; exact h.blocked_iff⟩
    refine ⟨hinv, hbusy, hsticky, ⟨_, hout, ?_⟩, fun _ => htrace⟩
    rw [hdel, pending, pending, hparked]
    exact ⟨List.Sublist.refl _, congrArg _ htrace⟩
  · have hinv : PutInv r t := ⟨hbuf, by rw [ht]; exact iff_of_false Bool.false_ne_true fun hc => hresult hc.2⟩
    rcases hend with ⟨hdel, htrace⟩ | ⟨hdel, habort, htrace⟩
    · refine ⟨hinv, hbusy, hsticky, ⟨_, hout, ?_⟩, fun _ => htrace⟩
      rw [hdel, pending, pending, parked_of_blocked hs, parked_of_unblocked ht]
      exact ⟨List.Sublist.refl _, congrArg _ htrace⟩
    · refine ⟨hinv, hbusy, hsticky, ⟨_, hout, ?_⟩, fun hclear => ?_⟩
      · rw [hdel, pending, pending, parked_of_blocked hs, parked_of_unblocked ht, aborts, htrace]
        refine ⟨List.sublist_cons_self _ _, ?_⟩
        simp only [List.nil_append, List.singleton_append, List.length_cons, aborts]
        omega
      · rw [habort] at hclear
        cases hclear

theorem host_turn {r r' : PutRun} {s t : State} (h : PutInv r s) (hx : putAndWait r s = .next (r', t)) :
    PutInv r' t ∧ PutProgress r s r' t := by
  obtain ⟨todo, waiting⟩ := r
  cases waiting with
  | true =>
    rw [putAndWait_read] at hx
    cases hx
    exact read_turn h
  | false =>
    cases todo with
    | nil =>
      cases hx
      exact ⟨h, .unchanged rfl rfl rfl rfl⟩
    | cons b todo =>
      rw [putAndWait_put b todo h.unblocked] at hx
      cases hx
      exact put_turn h

theorem other_turn {i : Instr} (hi : isHostStep i = false) {r r' : PutRun} {s t : State} (h : PutInv r s)
    (hx : takeTurn (.other i) r s = .next (r', t)) : PutInv r' t ∧ PutProgress r s r' t := by
  simp only [takeTurn] at hx
  split at hx
  · next u hu =>
    cases hx
    exact stimulus_turn hi h hu
  · cases hx
  · cases hx

/-- What every run of turns keeps and does, by induction on the turns. -/
theorem runTurns_progress {turns : List Turn} (hturns : ∀ i, Turn.other i ∈ turns → isHostStep i = false)
    {r r' : PutRun} {s t : State} (h : PutInv r s) (hx : runTurns turns r s = .next (r', t)) :
    PutInv r' t ∧ PutProgress r s r' t := by
  induction turns generalizing r s with
  | nil =>
    cases hx
    exact ⟨h, .unchanged rfl rfl rfl rfl⟩
  | cons turn rest ih =>
    simp only [runTurns] at hx
    split at hx
    · next r₁ u hu =>
      have hstep : PutInv r₁ u ∧ PutProgress r s r₁ u := by
        cases turn with
        | host => exact host_turn h hu
        | other i => exact other_turn (hturns i List.mem_cons_self) h hu
      obtain ⟨hinv, hprog⟩ := hstep
      obtain ⟨hinv', hprog'⟩ := ih (fun i hi => hturns i (List.mem_cons_of_mem _ hi)) hinv hx
      exact ⟨hinv', hprog.trans hprog'⟩
    · cases hx
    · cases hx

/-! ## What one turn of the HOST is -/

theorem putAndWait_begins (b : Byte) (todo : List Byte) (s : State) : ∃ t, exec (.putbyte b) s = .next t ∧
    putAndWait { todo := b :: todo, waiting := false } s = .next ({ todo := todo, waiting := true }, t) := by
  obtain ⟨t, ht⟩ := hostCommand_next false (putbyteBody b) s
  have hx : exec (.putbyte b) s = .next t := ht
  exact ⟨t, hx, by simp [putAndWait, PutRun.issues, PutRun.after, hx]⟩

/-- Settles O29: the expansions byte by byte, one turn of the HOST, and any run of turns by the invariant that a PUTBYTE
waits exactly while RESULT is 2 in a wait of the HOST. -/
theorem stringsExpandToPutBytes : Obligations.StringsExpandToPutBytes := by
  refine ⟨fun text len past => ⟨?_, rfl, writeBytes_todo_length text len past, fun i hi ht =>
    writeBytes_todo_getElem? text past hi ht⟩, fun todo s => ⟨?_, rfl, fun b => putAndWait_begins b todo s⟩, ?_⟩
  · have hne : (fun b : Byte => b != 0) = fun b => decide (b ≠ 0x00) := by
      funext b
      rw [bne, beq_eq_decide, decide_not]
    rw [writeString, hne]
  · rw [putAndWait_read, beq_eq_decide]
  · intro turns bytes s r t hb hw hturns hx
    have hstart : PutInv { todo := bytes, waiting := false } s := ⟨hb, by simp [hw]⟩
    have hall : pending { todo := bytes, waiting := false } s = bytes := by
      rw [pending, parked_of_unblocked hw]
      rfl
    obtain ⟨hinv, hprog⟩ := runTurns_progress hturns hstart hx
    obtain ⟨sent, hout, hsub, hlen⟩ := hprog.sent
    rw [hall] at hsub hlen
    have hstream : outStream t ++ parked t ++ r.todo = outStream s ++ (sent ++ pending r t) := by
      rw [hout, pending]
      simp only [List.append_assoc]
    refine ⟨fun hr => ?_, hprog.busy, ⟨_, hsub, hstream, hlen⟩, fun hclear => ?_⟩
    · obtain ⟨todo, waiting⟩ := r
      cases hr
      exact hinv.unblocked
    · have hnone := hprog.none_missing hclear
      rw [hstream, hsub.eq_of_length (by omega)]

end Sys2Proof.Machine
end

section
/-! Which instruction a step carries out, and when it is one (spec/40_serial.md R146, R151, R152;
spec/70_reset_and_hazards.md R333). -/
namespace Sys2Proof.Machine

/-! ## The instruction issued -/

/-- A step is a step of the instruction it issues. -/
theorem exec_issued (i : Instr) (s : State) : exec (issued i) s = exec i s := by
  cases i with
  | wr a v =>
    by_cases ha : a = 0x00
    · cases hd : decodeCommand v with
      | none => simp only [issued, hd, Option.getD_none, ite_self]
      | some j => simp only [issued, ha, if_pos, hd, Option.getD_some, exec_wr_cmd hd]
    · simp only [issued, if_neg ha]
  | _ => rfl

theorem issued_issued (i : Instr) : issued (issued i) = issued i := by
  rcases issued_cases i with hi | hi
  · exact congrArg issued hi
  · exact issued_of_command hi

/-! ## Enabling -/

/-- A command without a gate has its effect while no PUTBYTE waits. -/
theorem exec_ungated {i : Instr} (hi : isCommand i = true) (hg : isGated i = false) {s : State}
    (hb : s.tx.blocked = false) : exec i s = .next (effect i s) := by
  rw [exec_command hi, hg]
  exact hostCommand_runs hb nofun

theorem exec_command_next {i : Instr} (hi : isCommand i = true) (s : State) : ∃ t, exec i s = .next t := by
  rw [exec_command hi]
  exact hostCommand_next _ _ s

theorem issueWord_next (v : Word) (s : State) : ∃ t, issueWord v s = .next t := by
  unfold issueWord
  split
  · next j hd =>
    have hj := isCommand_of_decodeCommand hd
    rw [runCommand_eq_exec hj]
    exact exec_command_next hj s
  · exact hostCommand_next _ _ s

theorem exec_wr_next (a : Byte) (v : Word) (s : State) : ∃ t, exec (.wr a v) s = .next t := by
  simp only [exec, execWr]
  split
  · exact ⟨_, rfl⟩
  · split
    · exact ⟨_, rfl⟩
    · exact issueWord_next v s
    · exact ⟨_, rfl⟩
    · exact ⟨_, rfl⟩

/-- An enabled stimulus has its effect. -/
theorem exec_enabled_stimulus {i : Instr} (hi : isHostStep i = false) {s : State} (he : enabled i s = true) :
    exec i s = .next (effect i s) := by
  cases i with
  | lineTake | txIrq | putRetry => exact if_pos he
  | rxArrive | ptTick | dbTick | limIn | ctlIn | prbIn | stTick | msTick => rfl
  | _ => cases hi

/-- Only the three agents with an enabling condition can be not enabled. -/
theorem exec_not_enabled {i : Instr} {s : State} (he : enabled i s = false) :
    ∃ a, exec i s = .fault (.notEnabled a) := by
  cases i with
  | lineTake => exact ⟨.transmitLine, if_neg (Bool.eq_false_iff.mp he)⟩
  | txIrq => exact ⟨.transmitHandler, if_neg (Bool.eq_false_iff.mp he)⟩
  | putRetry => exact ⟨.putByteBlocker, if_neg (Bool.eq_false_iff.mp he)⟩
  | _ => cases he

theorem exec_enabled {i : Instr} {s : State} (he : enabled i s = true) : ∃ t, exec i s = .next t := by
  rcases instr_cases i with ⟨a, v, rfl⟩ | ⟨a, v, rfl⟩ | hi | ⟨hi, -⟩
  · rcases exec_rd_cases a v s with ⟨-, hx⟩ | ⟨r, -, hx⟩ <;> exact ⟨_, hx⟩
  · exact exec_wr_next a v s
  · exact exec_command_next hi s
  · exact ⟨_, exec_enabled_stimulus hi he⟩

theorem exec_next_iff (i : Instr) (s : State) : (∃ t, exec i s = .next t) ↔ enabled i s = true := by
  refine ⟨fun ⟨t, ht⟩ => ?_, exec_enabled⟩
  by_contra he
  obtain ⟨a, ha⟩ := exec_not_enabled (Bool.eq_false_iff.mpr he)
  rw [ha] at ht
  cases ht

/-- Settles O8: a bus transaction and a command end in a next state whatever the state; a stimulus steps exactly when
its agent is enabled. -/
theorem stepsExactlyWhenEnabled : Obligations.StepsExactlyWhenEnabled :=
  fun _ _ => ⟨exec_enabled, exec_not_enabled⟩

end Sys2Proof.Machine
end

section
/-! The transmit side (spec/40_serial.md R144 to R146, R151, R152, R155): each instruction exactly, and the stream
through every step. -/
namespace Sys2Proof.Machine

/-! ## The stream -/

/-- A refused PUTBYTE delivers nothing, and no other command delivers. -/
theorem delivered_of_blocked {i : Instr} (hi : isCommand i = true) {s : State} (hb : s.tx.blocked = true) :
    delivered i s = [] := by
  rw [delivered, issued_of_command hi]
  cases i with
  | putbyte c => simp only [hb, Bool.true_or, if_pos]
  | putRetry => cases hi
  | _ => rfl

theorem area_of_isGated {i : Instr} (hi : isGated i = true) : area i ≠ .transmit := by
  cases i with
  | pulseStart | computePwm | setSpeed | setState => nofun
  | _ => cases hi

/-- A command adds what it delivers: nothing where it is refused. -/
theorem outStream_command {i : Instr} (hi : isCommand i = true) {s t : State} (hb : BufferInv s)
    (hx : exec i s = .next t) : outStream t = outStream s ++ delivered i s := by
  have hiss := issued_of_command hi
  rw [exec_command hi] at hx
  rcases hostCommand_cases hx with ⟨hw, rfl⟩ | ⟨-, hg, -, rfl⟩ | ⟨hw, -, rfl⟩
  · rw [delivered_of_blocked hi hw, List.append_nil]
    rfl
  · rw [delivered_of_area hiss (area_of_isGated hg), List.append_nil]
    rfl
  · exact outStream_effect hb hiss (enabled_of_command hi s) fun _ => hw

/-- A bus access that issues no command leaves the stream as it is. -/
theorem outStream_wr {a : Byte} {v : Word} (hiss : issued (.wr a v) = .wr a v) {s t : State}
    (hx : exec (.wr a v) s = .next t) : outStream t = outStream s := by
  cases answers_of_wr hx with
  | refused => rfl
  | badRead => rfl
  | read => rfl
  | wrote => rw [write_frame]; rfl
  | ran j hij =>
    obtain rfl := hiss.symm.trans hij
    rfl

theorem outStream_rd {a : Byte} {v : Word} {s t : State} (hx : exec (.rd a v) s = .next t) :
    outStream t = outStream s := by
  rcases exec_rd_cases a v s with ⟨-, hx'⟩ | ⟨r, -, hx'⟩ <;>
    (obtain rfl := Host.Outcome.next.inj (hx'.symm.trans hx); rfl)

/-- The stream through a step of an instruction that issues itself. -/
theorem outStream_exec {i : Instr} (hiss : issued i = i) {s t : State} (hb : BufferInv s) (hx : exec i s = .next t) :
    outStream t = outStream s ++ delivered i s := by
  rcases instr_cases i with ⟨a, v, rfl⟩ | ⟨a, v, rfl⟩ | hi | ⟨hi, hc⟩
  · rw [delivered_of_area hiss nofun, List.append_nil, outStream_rd hx]
  · rw [delivered_of_area hiss nofun, List.append_nil, outStream_wr hiss hx]
  · exact outStream_command hi hb hx
  · obtain ⟨hen, rfl⟩ := exec_stimulus hi hx
    exact outStream_effect hb hiss hen fun h => by rw [hc] at h; cases h

/-- Settles O25: a step is that of the instruction it issues, a refusal or a register access touches no part of the
stream, and each effect adds what it delivers. -/
theorem transmitStreamConserved : Obligations.TransmitStreamConserved := by
  intro i s t hb hx
  have hd : delivered i s = delivered (issued i) s := by rw [delivered, delivered, issued_issued]
  rw [← exec_issued] at hx
  rw [hd]
  exact outStream_exec (issued_issued i) hb hx

end Sys2Proof.Machine
end

section
/-! The transmit side's instructions, each exactly (spec/40_serial.md R144 to R146, R151, R152). -/
namespace Sys2Proof.Machine

theorem txFull_iff_mod (s : State) : txFull s = true ↔ (s.tx.head + 1) % s.par.txCap = s.tx.tail := by
  rw [txFull_iff, advance_tx]

theorem txFull_eq_false_iff (s : State) : txFull s = false ↔ (s.tx.head + 1) % s.par.txCap ≠ s.tx.tail := by
  rw [← Bool.not_eq_true, txFull_iff_mod]

theorem txEmpty_eq_false_iff (s : State) : txEmpty s = false ↔ s.tx.head ≠ s.tx.tail := by
  rw [← Bool.not_eq_true, txEmpty_iff]

/-- A byte put into a buffer that is not full goes to its end (40_serial.md R145). -/
theorem txBuffered_txEnqueue {s : State} (hb : BufferInv s) (hf : txFull s = false) (c : Byte) :
    txBuffered (txEnqueue c s) = txBuffered s ++ [c] := by
  have hspace : advance s.par.txMask s.tx.head ≠ s.tx.tail := by rwa [advance_tx, ← txFull_eq_false_iff]
  exact window_push (k := s.par.txBits) hb.tx_wf hb.tx_head hb.tx_tail hspace c

/-- Only the cell at the old head is written. -/
theorem txEnqueue_read {s : State} (hb : BufferInv s) (c : Byte) (j : Nat) :
    (txEnqueue c s).tx.data.read j = if j = s.tx.head then c else s.tx.data.read j :=
  Memory.read_write hb.tx_wf s.tx.head j c

/-! ## PUTBYTE -/

theorem putbyteBody_direct {s : State} (he : s.tx.head = s.tx.tail) (hd : s.tdrFull = false) (c : Byte) :
    putbyteBody c s = returns 1 (sendDirect c s) := by
  rw [putbyteBody, (txEmpty_iff s).mpr he, hd]
  rfl

/-- Where the direct path is closed, a full buffer makes the byte wait and another takes it. -/
theorem putbyteBody_buffered {s : State} (hn : ¬ (s.tx.head = s.tx.tail ∧ s.tdrFull = false)) (c : Byte) :
    putbyteBody c s =
      if txFull s then returns 2 { s with tx := { s.tx with pend := c, blocked := true } }
      else returns 1 (txEnqueue c s) := by
  have hclosed : ¬ (txEmpty s && !s.tdrFull) = true := by
    rwa [Bool.and_eq_true, txEmpty_iff, Bool.not_eq_true']
  rw [putbyteBody, if_neg hclosed]

/-- Settles O22: the two tests of PUTBYTE, and what a store at the head adds to the buffer. -/
theorem putByteThreeWays : Obligations.PutByteThreeWays := by
  refine ⟨fun c => rfl, fun s c hb hw => ?_⟩
  have hx : exec (.putbyte c) s = .next (putbyteBody c s) := exec_ungated rfl rfl hw
  rw [hx]
  refine ⟨fun he hd => ?_, fun hn hfull => ?_, fun hn hspace => ?_⟩
  · rw [putbyteBody_direct he hd]
    rfl
  · rw [putbyteBody_buffered hn, if_pos ((txFull_iff_mod s).mpr hfull)]
    rfl
  · have hf : txFull s = false := (txFull_eq_false_iff s).mpr hspace
    rw [putbyteBody_buffered hn, hf, ← advance_tx]
    exact ⟨_, rfl, txBuffered_txEnqueue hb hf c, txEnqueue_read hb c, rfl⟩

/-! ## The wait -/

theorem exec_putRetry {s : State} (hw : s.tx.blocked = true) (cont : Bool) :
    exec (.putRetry cont) s = .next (putRetryEffect cont s) :=
  exec_enabled_stimulus (i := .putRetry cont) rfl hw

theorem putRetryEffect_space {s : State} (hf : txFull s = false) (cont : Bool) :
    putRetryEffect cont s = returns 1 (unblock (txEnqueue s.tx.pend s)) := by
  rw [putRetryEffect, hf]
  rfl

/-- A full buffer is left as it is; the callback's answer says whether the wait goes on. -/
theorem putRetryEffect_full {s : State} (hf : txFull s = true) (cont : Bool) :
    putRetryEffect cont s =
      if cont then deliver (.block cont) s else raise .txAbort (returns 0 (unblock (deliver (.block cont) s))) := by
  rw [putRetryEffect, hf]
  rfl

/-- A synchronous callback leaves its mark in the trace only (60_exceptions.md R296). -/
theorem deliver_synchronous {c : Callback} (hc : (∃ cont, c = .block cont) ∨ ∃ b handled, c = .rt b handled)
    (s : State) : deliver c s = { s with cbTrace := s.cbTrace ++ [c] } := by
  have hp : s.ipr ||| 0 = s.ipr := BitVec.or_zero
  rcases hc with ⟨cont, rfl⟩ | ⟨b, handled, rfl⟩ <;>
    simp only [deliver, Callback.pending, Callback.limitLatch, Callback.controlLatch, hp]

/-- Settles O23: enabled by the wait, and the test for space before the question. -/
theorem putRetryTurn : Obligations.PutRetryTurn := by
  refine ⟨fun cont => by cases cont <;> rfl, fun s cont hb => ⟨exec_next_iff (.putRetry cont) s, ?_, ?_, ?_⟩⟩
  · intro hw hspace
    have hf : txFull s = false := (txFull_eq_false_iff s).mpr hspace
    rw [exec_putRetry hw, putRetryEffect_space hf, ← advance_tx]
    exact ⟨_, rfl, txBuffered_txEnqueue hb hf s.tx.pend, txEnqueue_read hb s.tx.pend, rfl⟩
  · rintro hw hfull rfl
    rw [exec_putRetry hw, putRetryEffect_full ((txFull_iff_mod s).mpr hfull), if_pos rfl,
      deliver_synchronous (.inl ⟨true, rfl⟩)]
  · rintro hw hfull rfl
    rw [exec_putRetry hw, putRetryEffect_full ((txFull_iff_mod s).mpr hfull), if_neg nofun,
      deliver_synchronous (.inl ⟨false, rfl⟩)]
    rfl

/-! ## The transmit handler and the line -/

theorem enabled_txIrq_iff (s : State) : enabled .txIrq s = true ↔ s.tx.irqEn = true ∧ s.tdrFull = false := by
  rw [enabled, Bool.and_eq_true, Bool.not_eq_true']

theorem exec_txIrq {s : State} (hirq : s.tx.irqEn = true) (hd : s.tdrFull = false) :
    exec .txIrq s = .next (txIrqEffect s) :=
  exec_enabled_stimulus rfl ((enabled_txIrq_iff s).mpr ⟨hirq, hd⟩)

theorem txIrqEffect_empty {s : State} (he : s.tx.head = s.tx.tail) :
    txIrqEffect s = raise .txUnderrun { s with tx := { s.tx with irqEn := false } } := by
  rw [txIrqEffect, (txEmpty_iff s).mpr he]
  rfl

/-- The handler takes the byte at tail and stays enabled while a byte is left. -/
theorem txIrqEffect_nonempty {s : State} (hirq : s.tx.irqEn = true) (hne : s.tx.head ≠ s.tx.tail) :
    txIrqEffect s =
      { s with tdr := s.tx.data.read s.tx.tail, tdrFull := true,
               tx := { s.tx with tail := (s.tx.tail + 1) % s.par.txCap,
                                 irqEn := decide ((s.tx.tail + 1) % s.par.txCap ≠ s.tx.head) } } := by
  have hoff : (if (s.tx.tail + 1) % s.par.txCap = s.tx.head then false else s.tx.irqEn) =
      decide ((s.tx.tail + 1) % s.par.txCap ≠ s.tx.head) := by
    by_cases h : (s.tx.tail + 1) % s.par.txCap = s.tx.head <;> simp [h, hirq]
  rw [txIrqEffect, (txEmpty_eq_false_iff s).mpr hne, advance_tx, ← hoff]
  rfl

/-- Settles O24: the handler on a buffer with a byte and on an empty one, the line, and when each steps. -/
theorem transmitHandlerAndLine : Obligations.TransmitHandlerAndLine := by
  refine ⟨rfl, rfl, fun s hb => ⟨fun hirq hd hne => ?_, fun hirq hd he => ?_, ?_, fun hd => ?_, ?_⟩⟩
  · exact ⟨_, exec_txIrq hirq hd, (txBuffered_txIrqEffect hb hne).1, txIrqEffect_nonempty hirq hne⟩
  · rw [exec_txIrq hirq hd, txIrqEffect_empty he]
    rfl
  · rw [exec_next_iff, enabled_txIrq_iff]
  · exact exec_enabled_stimulus (i := .lineTake) rfl hd
  · exact exec_next_iff .lineTake s

end Sys2Proof.Machine
end

section
/-! The receive side (spec/40_serial.md R141 to R143, R148 to R150, R153, R156, R157): each instruction exactly, the
unread bytes through every step, and the backup protocol. -/
namespace Sys2Proof.Machine

theorem rxFull_iff_mod (s : State) : rxFull s = true ↔ (s.rx.head + 1) % s.par.rxCap = s.rx.tail := by
  rw [rxFull_iff, advance_rx]

theorem rxFull_eq_false_iff (s : State) : rxFull s = false ↔ (s.rx.head + 1) % s.par.rxCap ≠ s.rx.tail := by
  rw [← Bool.not_eq_true, rxFull_iff_mod]

/-- A byte stored in a buffer that is not full goes to its end. -/
theorem rxUnread_rxStore {s : State} (hb : BufferInv s) (hf : rxFull s = false) (b : Byte) :
    rxUnread (rxStore b s) = rxUnread s ++ [b] := by
  have hspace : advance s.par.rxMask s.rx.head ≠ s.rx.tail := by rwa [advance_rx, ← rxFull_eq_false_iff]
  exact window_push (k := s.par.rxBits) hb.rx_wf hb.rx_head hb.rx_tail hspace b

/-- Only the cell at the old head is written. -/
theorem rxStore_read {s : State} (hb : BufferInv s) (b : Byte) (j : Nat) :
    (rxStore b s).rx.data.read j = if j = s.rx.head then b else s.rx.data.read j :=
  Memory.read_write hb.rx_wf s.rx.head j b

/-! ## The receive handler -/

theorem rxArriveEffect_full {s : State} (hf : rxFull s = true) (handled : Bool) (b : Byte) :
    rxArriveEffect handled b s = { s with rx := { s.rx with ovf := true } } := by
  rw [rxArriveEffect, if_pos hf]

theorem rxArriveEffect_toolack {s : State} (hf : rxFull s = false) (hk : s.rx.bkActive = false) (handled : Bool) :
    rxArriveEffect handled s.par.toolackByte s = takeSnapshot s := by
  rw [rxArriveEffect, hf, if_neg nofun, if_pos ⟨rfl, hk⟩]

/-- A byte that finds space and is no tool-acknowledge byte, or comes while a backup is held, is offered to the
interceptor, and stored unless it is claimed. -/
theorem rxArriveEffect_offered {s : State} (hf : rxFull s = false) {b : Byte}
    (hn : b ≠ s.par.toolackByte ∨ s.rx.bkActive = true) (handled : Bool) :
    rxArriveEffect handled b s =
      if handled then { s with cbTrace := s.cbTrace ++ [.rt b handled] }
      else rxStore b { s with cbTrace := s.cbTrace ++ [.rt b handled] } := by
  have hno : ¬ (b = s.par.toolackByte ∧ s.rx.bkActive = false) := by
    rintro ⟨hb, hk⟩
    rcases hn with hn | hn
    · exact hn hb
    · rw [hk] at hn; cases hn
  rw [rxArriveEffect, hf, if_neg nofun, if_neg hno, deliver_synchronous (.inr ⟨b, handled, rfl⟩)]

theorem encode_rxArrive (handled : Bool) (b : Byte) : encode (.rxArrive handled b) =
    .word (BitVec.ofNat 32 (0x80000000 + (if handled then 256 else 0) + b.toNat)) := by
  have hassoc := (Nat.add_assoc 0x80000000 (handled.toNat * 256) b.toNat).symm
  cases handled <;> exact congrArg (fun n => Frame.word (BitVec.ofNat 32 n)) hassoc

/-- Settles O21: the four outcomes of the handler, and what a store at the head adds to the buffer. -/
theorem receiveHandlerOrder : Obligations.ReceiveHandlerOrder := by
  refine ⟨encode_rxArrive, fun s handled b hb => ?_⟩
  have hx : exec (.rxArrive handled b) s = .next (rxArriveEffect handled b s) := rfl
  rw [hx]
  refine ⟨fun hfull => ?_, fun hspace htool hk => ?_, fun hspace hn hc => ?_, fun hspace hn hc => ?_⟩
  · rw [rxArriveEffect_full ((rxFull_iff_mod s).mpr hfull)]
  · rw [htool, rxArriveEffect_toolack ((rxFull_eq_false_iff s).mpr hspace) hk]
    rfl
  · rw [rxArriveEffect_offered ((rxFull_eq_false_iff s).mpr hspace) hn, hc, if_pos rfl]
  · have hf : rxFull s = false := (rxFull_eq_false_iff s).mpr hspace
    rw [rxArriveEffect_offered hf hn, hc, if_neg nofun, ← advance_rx]
    exact ⟨_, rfl, rxUnread_rxStore hb hf b, rxStore_read hb b, rfl⟩

/-! ## GETBYTE -/

theorem getbyteBody_none {s : State} (h : s.rx.suspended = true ∨ s.rx.head = s.rx.tail) :
    getbyteBody s = returns none32 s := by
  rw [getbyteBody, if_pos (by rwa [Bool.or_eq_true, rxEmpty_iff])]

theorem getbyteBody_some {s : State} (hs : s.rx.suspended = false) (hne : s.rx.head ≠ s.rx.tail) :
    getbyteBody s =
      { s with result := (s.rx.data.read s.rx.tail).setWidth 32,
               rx := { s.rx with tail := (s.rx.tail + 1) % s.par.rxCap } } := by
  have hno : ¬ (s.rx.suspended || rxEmpty s) = true := by
    rw [Bool.or_eq_true, rxEmpty_iff, hs]
    exact fun h => hne (h.resolve_left nofun)
  rw [getbyteBody, if_neg hno, advance_rx]
  rfl

/-- GETBYTE takes the byte at tail from the front of the unread bytes. -/
theorem rxUnread_getbyteBody {s : State} (hb : BufferInv s) (hs : s.rx.suspended = false)
    (hne : s.rx.head ≠ s.rx.tail) :
    rxUnread s = s.rx.data.read s.rx.tail :: rxUnread (getbyteBody s) := by
  rw [getbyteBody_some hs hne, ← advance_rx]
  exact window_pop (k := s.par.rxBits) s.rx.data hb.rx_head hb.rx_tail hne

/-- Settles O19: no byte where suspended or empty, else the byte at tail. -/
theorem getByteTakesOldest : Obligations.GetByteTakesOldest := by
  refine ⟨rfl, fun s hb hw => ?_⟩
  have hx : exec .getbyte s = .next (getbyteBody s) := exec_ungated rfl rfl hw
  rw [hx]
  refine ⟨fun h => by rw [getbyteBody_none h]; rfl, fun hs hne => ?_⟩
  have hbody := getbyteBody_some hs hne
  exact ⟨_, rfl, ⟨_, rxUnread_getbyteBody hb hs hne, by rw [hbody]⟩, hbody⟩

/-! ## The unread bytes through every step -/

/-- The instructions whose effect writes what `rxUnread` reads. -/
def writesUnread : Instr → Bool
  | .rxflush | .rxcancel | .getbyte | .suspend _ | .rxArrive _ _ => true
  | _ => false

theorem writesUnread_cases {i : Instr} (h : writesUnread i = true) :
    i = .rxflush ∨ i = .rxcancel ∨ i = .getbyte ∨ (∃ f, i = .suspend f) ∨ ∃ handled b, i = .rxArrive handled b := by
  cases i with
  | rxflush => exact .inl rfl
  | rxcancel => exact .inr (.inl rfl)
  | getbyte => exact .inr (.inr (.inl rfl))
  | suspend f => exact .inr (.inr (.inr (.inl ⟨f, rfl⟩)))
  | rxArrive handled b => exact .inr (.inr (.inr (.inr ⟨handled, b, rfl⟩)))
  | _ => cases h

theorem rxUnread_congr {s t : State} (hpar : t.par = s.par) (hrx : t.rx = s.rx) : rxUnread t = rxUnread s := by
  unfold rxUnread
  rw [hpar, hrx]

theorem rxUnread_effect {i : Instr} (hi : writesUnread i = false) (s : State) : rxUnread (effect i s) = rxUnread s := by
  by_cases hp : area i = .receive
  · rcases area_eq_receive hp with rfl | rfl | rfl | rfl | ⟨f, rfl⟩ | rfl | ⟨handled, b, rfl⟩
    · rfl
    · cases hi
    · cases hi
    · cases hi
    · cases hi
    · rfl
    · cases hi
  · have hf := (effect_does i s).frame
    exact rxUnread_congr hf.par (hf.receive hp).1

theorem rxUnread_exec {i : Instr} (hi : writesUnread (issued i) = false) {s t : State} (hx : exec i s = .next t) :
    rxUnread t = rxUnread s := by
  cases exec_answers hx with
  | refused => rfl
  | badRead => rfl
  | read => rfl
  | wrote => rw [write_frame]; rfl
  | ran j hij => exact rxUnread_effect (hij ▸ hi) s

/-- An arrival that the interceptor does not claim is added at the end where there is space. -/
theorem rxUnread_arrival {s : State} (hb : BufferInv s) {b : Byte} (hn : b ≠ s.par.toolackByte) :
    rxUnread (rxArriveEffect false b s) =
      rxUnread s ++ if (s.rx.head + 1) % s.par.rxCap = s.rx.tail then [] else [b] := by
  split
  · next hfull =>
    rw [rxArriveEffect_full ((rxFull_iff_mod s).mpr hfull), List.append_nil]
    rfl
  · next hspace =>
    have hf : rxFull s = false := (rxFull_eq_false_iff s).mpr hspace
    rw [rxArriveEffect_offered hf (.inl hn), if_neg nofun]
    exact rxUnread_rxStore hb hf b

theorem rxUnread_claimed {s : State} {b : Byte} (hn : b ≠ s.par.toolackByte) :
    rxUnread (rxArriveEffect true b s) = rxUnread s := by
  cases hf : rxFull s with
  | true => rw [rxArriveEffect_full hf]; rfl
  | false => rw [rxArriveEffect_offered hf (.inl hn)]; rfl

/-- A step of GETBYTE takes nothing, or the byte it returns from the front. -/
theorem exec_getbyte_takes {s t : State} (hb : BufferInv s) (hx : exec .getbyte s = .next t) :
    rxUnread t = rxUnread s ∨ ∃ b, rxUnread s = b :: rxUnread t ∧ s.tx.blocked = false ∧
      s.rx.suspended = false ∧ t.result = b.setWidth 32 := by
  rcases hostCommand_cases hx with ⟨-, rfl⟩ | ⟨-, hg, -⟩ | ⟨hw, -, rfl⟩
  · exact .inl rfl
  · cases hg
  · by_cases h : s.rx.suspended = true ∨ s.rx.head = s.rx.tail
    · rw [getbyteBody_none h]
      exact .inl rfl
    · obtain ⟨hs, hne⟩ := not_or.mp h
      rw [Bool.not_eq_true] at hs
      exact .inr ⟨_, rxUnread_getbyteBody hb hs hne, hw, hs, by rw [getbyteBody_some hs hne]⟩

/-- Settles O26: an arrival by the handler's outcomes, GETBYTE by what it takes, and every other step the statement
allows leaves alone what `rxUnread` reads. -/
theorem receiveStreamConserved : Obligations.ReceiveStreamConserved := by
  intro i s t hb hx hflush hcancel hsuspend htool
  split
  · next b =>
    obtain ⟨-, rfl⟩ := exec_stimulus rfl hx
    exact ⟨[], rxUnread_arrival hb fun h => htool false (by rw [h]), .inl rfl⟩
  · next hunclaimed =>
    rw [List.append_nil]
    cases hw : writesUnread (issued i) with
    | false => exact ⟨[], rxUnread_exec hw hx, .inl rfl⟩
    | true =>
      rcases writesUnread_cases hw with h | h | h | ⟨f, h⟩ | ⟨handled, b, h⟩
      · exact absurd h hflush
      · exact absurd h hcancel
      · rw [← exec_issued, h] at hx
        rcases exec_getbyte_takes hb hx with hsame | ⟨b, htaken, hfree, hs, hresult⟩
        · exact ⟨[], hsame, .inl rfl⟩
        · exact ⟨[b], htaken.symm, .inr ⟨b, rfl, h, hfree, hs, hresult⟩⟩
      · exact absurd h (hsuspend f)
      · obtain rfl := eq_of_issued h rfl
        cases handled with
        | false => exact absurd rfl (hunclaimed b)
        | true =>
          obtain ⟨-, rfl⟩ := exec_stimulus rfl hx
          exact ⟨[], rxUnread_claimed fun hb => htool true (by rw [hb]), .inl rfl⟩

/-! ## RXFREE -/

theorem rxCap_le {p : Params} (h : p.valid = true) : p.rxCap ≤ 2 ^ 31 := by
  obtain ⟨-, ⟨-, hr⟩, -⟩ := p.valid_iff.mp h
  exact Nat.pow_le_pow_right (by decide) hr

theorem length_rxUnread (s : State) : (rxUnread s).length = (s.rx.head + s.par.rxCap - s.rx.tail) % s.par.rxCap := by
  rw [rxUnread, window_length, occupied_rx]

/-- Settles O16: RESULT is wide enough for the difference, which the two ends fix. -/
theorem rxFreeCountsFreeSlots : Obligations.RxFreeCountsFreeSlots := by
  refine ⟨rfl, fun s hv hb hw => ?_⟩
  have hcap := s.par.rxCap_pos
  have hle := rxCap_le hv
  have hheld : (rxUnread s).length < s.par.rxCap := by
    rw [length_rxUnread]
    exact Nat.mod_lt _ hcap
  have hbody : rxfreeBody s = { s with result := BitVec.ofNat 32 (s.par.rxCap - (rxUnread s).length) } := by
    rw [length_rxUnread, ← occupied_rx]
    rfl
  have hn : (BitVec.ofNat 32 (s.par.rxCap - (rxUnread s).length)).toNat = s.par.rxCap - (rxUnread s).length := by
    rw [BitVec.toNat_ofNat]
    exact Nat.mod_eq_of_lt (by omega)
  refine ⟨_, (exec_ungated (i := .rxfree) rfl rfl hw).trans (congrArg _ hbody), hn, fun h0 => ?_, fun he => ?_,
    fun hfull => ?_⟩
  · rw [h0] at hn
    change 0 = _ at hn
    omega
  · rw [hn, length_rxUnread, he, Nat.add_sub_cancel_left, Nat.mod_self, Nat.sub_zero]
  · rw [hn, length_rxUnread, mod_sub_cases hb.rx_head hb.rx_tail]
    rw [mod_succ_cases hb.rx_head] at hfull
    have hlt := hb.rx_head
    split at hfull <;> split <;> omega

/-! ## RXCANCEL -/

theorem rxcancelBody_free {s : State} (hk : s.rx.bkActive = false) :
    rxcancelBody s = rxStore s.par.canByte { s with rx := { s.rx with tail := s.rx.head } } := by
  rw [rxcancelBody, hk]
  rfl

/-- A buffer emptied at its head is not full: a legal capacity is at least 2. -/
theorem rxFull_emptied {s : State} (hv : s.par.valid = true) (hb : BufferInv s) :
    rxFull { s with rx := { s.rx with tail := s.rx.head } } = false := by
  rw [rxFull_eq_false_iff]
  have hcap := (Params.two_le_cap hv).1
  have hlt := hb.rx_head
  change (s.rx.head + 1) % s.par.rxCap ≠ s.rx.head
  rw [mod_succ_cases hlt]
  split <;> omega

/-- Settles O18: refused in a backup, else one byte stored in the buffer emptied at its head. -/
theorem rxCancelLeavesCanByte : Obligations.RxCancelLeavesCanByte := by
  refine ⟨rfl, fun s hv hb hw => ?_⟩
  have hx : exec .rxcancel s = .next (rxcancelBody s) := exec_ungated rfl rfl hw
  rw [hx]
  refine ⟨fun hk => ?_, fun hk => ?_⟩
  · rw [rxcancelBody, if_pos hk]
    rfl
  · have hinv : BufferInv { s with rx := { s.rx with tail := s.rx.head } } := { hb with rx_tail := hb.rx_head }
    have hempty : rxUnread { s with rx := { s.rx with tail := s.rx.head } } = [] :=
      window_empty s.rx.data s.par.rxBits s.rx.head
    have hpush := rxUnread_rxStore hinv (rxFull_emptied hv hb) s.par.canByte
    rw [hempty] at hpush
    rw [rxcancelBody_free hk, ← advance_rx]
    exact ⟨_, rfl, hpush, rxStore_read hinv s.par.canByte, rfl⟩

/-! ## RXFLUSH, RXOVFCLR, SUSPEND -/

/-- Settles O17: the two bodies, run while no PUTBYTE waits. -/
theorem flushAndOverflowClear : Obligations.FlushAndOverflowClear :=
  ⟨rfl, rfl, fun _ hw => ⟨exec_ungated (i := .rxflush) rfl rfl hw, exec_ungated (i := .rxovfclr) rfl rfl hw⟩⟩

theorem flagWord_pending (s : State) : flagWord (!rxEmpty s) = if s.rx.head ≠ s.rx.tail then 1 else 0 := by
  by_cases h : s.rx.head = s.rx.tail <;> simp [flagWord, rxEmpty, h]

theorem exec_suspend {s : State} (hw : s.tx.blocked = false) (f : Bool) :
    exec (.suspend f) s =
      .next { suspendEffect f s with
        result := if (suspendEffect f s).rx.head ≠ (suspendEffect f s).rx.tail then 1 else 0 } := by
  rw [← flagWord_pending]
  exact exec_ungated (i := .suspend f) rfl rfl hw

/-- SUSPEND 0 with a backup held makes the snapshot the live buffer. -/
theorem suspendEffect_restore {s : State} (hk : s.rx.bkActive = true) :
    suspendEffect false s =
      { s with rx := { s.rx with data := s.bk.data, head := s.bk.head, tail := s.bk.tail,
                                 suspended := false, bkActive := false } } := by
  rw [suspendEffect, if_neg nofun, hk]
  rfl

theorem suspendEffect_resume {s : State} (hk : s.rx.bkActive = false) :
    suspendEffect false s = { s with rx := { s.rx with suspended := false } } := by
  rw [suspendEffect, if_neg nofun, hk]
  rfl

/-- Settles O20: SUSPEND's effect in its three cases, and the pending flag on the indices after it. -/
theorem suspendAndRestore : Obligations.SuspendAndRestore := by
  refine ⟨fun f => by cases f <;> rfl, fun s hw => ⟨exec_suspend hw true, fun hk => ?_, fun hk => ?_⟩⟩
  · rw [exec_suspend hw, suspendEffect_resume hk]
  · rw [exec_suspend hw, suspendEffect_restore hk]

/-! ## The backup protocol -/

theorem runInstrs_cons {i : Instr} {s t : State} (hx : exec i s = .next t) (rest : List Instr) :
    runInstrs (i :: rest) s = runInstrs rest t := by
  rw [runInstrs, hx]

theorem runInstrs_append {before : List Instr} {s t : State} (hx : runInstrs before s = .next t)
    (after : List Instr) : runInstrs (before ++ after) s = runInstrs after t := by
  induction before generalizing s with
  | nil => cases hx; rfl
  | cons i rest ih =>
    rw [runInstrs] at hx
    split at hx
    · next u hu => rw [List.cons_append, runInstrs_cons hu, ih hx]
    · cases hx
    · cases hx

/-- `t` has what a restore needs of `s`: the parameters, the snapshot, still held, and the transmit side, by which
SUSPEND is accepted or refused. -/
structure KeepsBackup (s t : State) : Prop where
  par : t.par = s.par
  bk : t.bk = s.bk
  active : t.rx.bkActive = true
  tx : t.tx = s.tx

/-- While a backup is held no arrival takes another. -/
theorem rxArriveEffect_keeps_backup {s : State} (hk : s.rx.bkActive = true) (handled : Bool) (b : Byte) :
    KeepsBackup s (rxArriveEffect handled b s) := by
  cases hf : rxFull s with
  | true => rw [rxArriveEffect_full hf]; exact ⟨rfl, rfl, hk, rfl⟩
  | false =>
    rw [rxArriveEffect_offered hf (.inr hk)]
    cases handled <;> exact ⟨rfl, rfl, hk, rfl⟩

theorem arrivals_keep_backup (later : List (Bool × Byte)) {s : State} (hk : s.rx.bkActive = true) :
    ∃ t, runInstrs (later.map fun x => Instr.rxArrive x.1 x.2) s = .next t ∧ KeepsBackup s t := by
  induction later generalizing s with
  | nil => exact ⟨s, rfl, rfl, rfl, hk, rfl⟩
  | cons x rest ih =>
    have hu := rxArriveEffect_keeps_backup hk x.1 x.2
    obtain ⟨t, hrun, ht⟩ := ih hu.active
    exact ⟨t, hrun, ht.par.trans hu.par, ht.bk.trans hu.bk, ht.active, ht.tx.trans hu.tx⟩

/-- Settles O27: the snapshot is the buffer of before, arrivals keep it, and SUSPEND 0 makes it the live buffer. -/
theorem backupProtocolRestores : Obligations.BackupProtocolRestores := by
  intro s h later _ hw hk hspace
  have hsnap : exec (.rxArrive h s.par.toolackByte) s = .next (takeSnapshot s) :=
    congrArg _ (rxArriveEffect_toolack ((rxFull_eq_false_iff s).mpr hspace) hk h)
  obtain ⟨u, hrun, hpar, hbk, hactive, htx⟩ := arrivals_keep_backup later (s := takeSnapshot s) rfl
  have hsuspend : exec (.suspend false) u = _ := exec_suspend (htx ▸ hw) false
  rw [List.cons_append, runInstrs_cons hsnap, runInstrs_append hrun, runInstrs_cons hsuspend,
    suspendEffect_restore hactive, hbk]
  refine ⟨_, rfl, ?_, rfl, rfl, rfl⟩
  unfold rxUnread
  rw [hpar]
  rfl

end Sys2Proof.Machine
end

section
/-! The pulse engine: a pulse started, one tick of its timer, and the state machine of the two (spec/41_stepper.md R184
to R186, R192). -/
namespace Sys2Proof.Machine

/-! ## One tick of the pulse timer -/

theorem exec_ptTick (s : State) : exec .ptTick s = .next (ptTickEffect s) := rfl

/-- `s` with the pulse timer's count at `c`: all that a tick without a match changes. -/
def withPtCount (c : Word) (s : State) : State := { s with pt := { s.pt with cnt := c } }

section
variable {s : State}

theorem ptTickEffect_stopped (hrun : s.pt.run = false) : ptTickEffect s = s := by
  rw [ptTickEffect, hrun, if_neg nofun]

theorem ptTickEffect_unmatched (hrun : s.pt.run = true) (hm : s.pt.cnt + 1 ≠ s.pt.cmp) :
    ptTickEffect s = withPtCount (s.pt.cnt + 1) s := by
  rw [ptTickEffect, if_pos hrun]
  exact if_neg hm

theorem ptTickEffect_matched (hrun : s.pt.run = true) (hm : s.pt.cnt + 1 = s.pt.cmp) :
    ptTickEffect s = pulseMatch (withPtCount (s.pt.cnt + 1) s) := by
  rw [ptTickEffect, if_pos hrun]
  exact if_pos hm

theorem pulseMatch_idle (hp : s.pe.state = .idle) : pulseMatch s = s := by
  rw [pulseMatch, hp]

theorem pulseMatch_waitDelay (hp : s.pe.state = .waitDelay) :
    pulseMatch s =
      { s with
        pe := { s.pe with stepL := s.pe.stash, state := .pulsing }
        pt := { s.pt with cmp := s.ac.delayTicks + s.ac.widthTicks } } := by
  rw [pulseMatch, hp]

theorem pulseMatch_pulsing (hp : s.pe.state = .pulsing) :
    pulseMatch s =
      { s with pe := { s.pe with stepL := 0, state := .idle }, pt := { s.pt with run := false } } := by
  rw [pulseMatch, hp]

/-- Settles O31: the three tests of a tick, and the match by the state of the engine. -/
theorem pulseTimerTick : Obligations.PulseTimerTick := by
  refine ⟨rfl, fun s => ?_⟩
  rw [exec_ptTick]
  refine ⟨fun hrun => ?_, fun hrun hno => ?_, fun hrun hm hp => ?_, fun hrun hm hp => ?_⟩
  · exact congrArg _ (ptTickEffect_stopped hrun)
  · by_cases hm : s.pt.cnt + 1 = s.pt.cmp
    · have hp : s.pe.state = .idle := hno.resolve_left (not_not.mpr hm)
      rw [ptTickEffect_matched hrun hm]
      exact congrArg _ (pulseMatch_idle (s := withPtCount (s.pt.cnt + 1) s) hp)
    · exact congrArg _ (ptTickEffect_unmatched hrun hm)
  · rw [ptTickEffect_matched hrun hm]
    exact congrArg _ (pulseMatch_waitDelay (s := withPtCount (s.pt.cnt + 1) s) hp)
  · rw [ptTickEffect_matched hrun hm]
    exact congrArg _ (pulseMatch_pulsing (s := withPtCount (s.pt.cnt + 1) s) hp)

/-- A match takes the engine out of the wait and out of the pulse, to the next state of the table. -/
theorem pulseMatch_state (hne : (pulseMatch s).pe.state ≠ s.pe.state) :
    s.pe.state = .waitDelay ∧ (pulseMatch s).pe.state = .pulsing ∨
      s.pe.state = .pulsing ∧ (pulseMatch s).pe.state = .idle := by
  cases hp : s.pe.state with
  | idle => exact absurd (by rw [pulseMatch_idle hp]) hne
  | waitDelay => exact .inl ⟨rfl, by rw [pulseMatch_waitDelay hp]⟩
  | pulsing => exact .inr ⟨rfl, by rw [pulseMatch_pulsing hp]⟩

/-- A tick changes the state of the engine at a match only, from the wait to the pulse or from the pulse to idle. -/
theorem ptTickEffect_state (hne : (ptTickEffect s).pe.state ≠ s.pe.state) :
    s.pt.cnt + 1 = s.pt.cmp ∧
      (s.pe.state = .waitDelay ∧ (ptTickEffect s).pe.state = .pulsing ∨
        s.pe.state = .pulsing ∧ (ptTickEffect s).pe.state = .idle) := by
  cases hrun : s.pt.run with
  | false => exact absurd (by rw [ptTickEffect_stopped hrun]) hne
  | true =>
    by_cases hm : s.pt.cnt + 1 = s.pt.cmp
    · rw [ptTickEffect_matched hrun hm] at hne ⊢
      exact ⟨hm, pulseMatch_state hne⟩
    · exact absurd (by rw [ptTickEffect_unmatched hrun hm]; rfl) hne

end

/-! ## The start of a pulse -/

theorem exec_gated {i : Instr} (hi : isGated i = true) {s : State} (hb : s.tx.blocked = false)
    (hc : s.configured = true) : exec i s = .next (effect i s) := by
  rw [exec_command (isCommand_of_isGated hi)]
  exact hostCommand_runs hb fun _ => hc

/-- The lazy refresh neither reads nor writes the pulse engine. -/
theorem lazySpindleRefresh_pe (e : PulseEngine) (s : State) :
    lazySpindleRefresh { s with pe := e } = { lazySpindleRefresh s with pe := e } := by
  unfold lazySpindleRefresh setSpeed driveSpeed
  dsimp only
  split
  · split <;> rfl
  · rfl

theorem lazySpindleRefresh_ac (s : State) : (lazySpindleRefresh s).ac = s.ac :=
  (congrArg State.ac (lazySpindleRefresh_frame s) :)

theorem lazySpindleRefresh_par (s : State) : (lazySpindleRefresh s).par = s.par :=
  (congrArg State.par (lazySpindleRefresh_frame s) :)

/-- The lazy refresh is SET_SPEED of the commanded duty, where there is something to refresh. -/
theorem exec_setSpeed_lazy {s : State} (hb : s.tx.blocked = false) (hc : s.configured = true) :
    (if s.ac.varSpeed = true ∧ s.spnPwmCmd ≠ s.sp.applied then exec (.setSpeed s.spnPwmCmd) s else .next s) =
      .next (lazySpindleRefresh s) := by
  rcases lazySpindleRefresh_cases s with ⟨hr, hno⟩ | ⟨hr, hyes⟩
  · have hskip : ¬ (s.ac.varSpeed = true ∧ s.spnPwmCmd ≠ s.sp.applied) := by
      rintro ⟨hv, hd⟩
      rcases hno with hno | hno
      · rw [hv] at hno; cases hno
      · exact hd hno
    rw [if_neg hskip, hr]
  · rw [if_pos hyes, hr]
    exact exec_gated rfl hb hc

section
variable {s : State}

theorem pulseStartBody_overrun (hp : s.pe.state ≠ .idle) (dir step : Byte) :
    pulseStartBody dir step s = raise .pulseOverrun s := if_pos hp

theorem pulseStartBody_starts (hp : s.pe.state = .idle) (dir step : Byte) :
    pulseStartBody dir step s =
      startPulse step { lazySpindleRefresh s with pe := { s.pe with dirL := dir &&& s.par.axisMask } } := by
  rw [pulseStartBody, if_neg (not_not.mpr hp), lazySpindleRefresh_pe]
  rfl

theorem pulseStartBody_immediate (hp : s.pe.state = .idle) (hd : s.ac.delayed = false) (dir step : Byte) :
    pulseStartBody dir step s =
      { lazySpindleRefresh s with
        pe := { s.pe with dirL := dir &&& s.par.axisMask, stepL := step &&& s.par.axisMask, state := .pulsing }
        pt := { run := true, cnt := 0, cmp := s.ac.widthTicks } } := by
  rw [pulseStartBody_starts hp, startPulse]
  simp only [lazySpindleRefresh_ac, lazySpindleRefresh_par, hd]
  rfl

theorem pulseStartBody_delayed (hp : s.pe.state = .idle) (hd : s.ac.delayed = true) (dir step : Byte) :
    pulseStartBody dir step s =
      { lazySpindleRefresh s with
        pe := { s.pe with dirL := dir &&& s.par.axisMask, stash := step &&& s.par.axisMask, state := .waitDelay }
        pt := { run := true, cnt := 0, cmp := s.ac.delayTicks } } := by
  rw [pulseStartBody_starts hp, startPulse]
  simp only [lazySpindleRefresh_ac, lazySpindleRefresh_par, hd]
  rfl

/-- PULSE_START changes the state of an idle engine only, to the first state of the active mode. -/
theorem pulseStartBody_state {dir step : Byte} (hne : (pulseStartBody dir step s).pe.state ≠ s.pe.state) :
    s.pe.state = .idle ∧
      (pulseStartBody dir step s).pe.state = if s.ac.delayed then .waitDelay else .pulsing := by
  by_cases hp : s.pe.state = .idle
  · refine ⟨hp, ?_⟩
    cases hd : s.ac.delayed with
    | false => rw [pulseStartBody_immediate hp hd]; rfl
    | true => rw [pulseStartBody_delayed hp hd]; rfl
  · exact absurd (by rw [pulseStartBody_overrun hp, raise_pe]) hne

end

theorem encode_pulseStart (dir step : Byte) : encode (.pulseStart dir step) =
    .word (BitVec.ofNat 32 (0x10000000 + dir.toNat * 256 + step.toNat)) :=
  congrArg (fun n => Frame.word (BitVec.ofNat 32 n)) (Nat.add_assoc 0x10000000 (dir.toNat * 256) step.toNat).symm

/-- Settles O30: the gate, the overrun, and the body in the two modes after the lazy refresh. -/
theorem pulseStartBeginsPulse : Obligations.PulseStartBeginsPulse := by
  refine ⟨encode_pulseStart, fun s dir step hb => ⟨fun hc => ?_, fun hc hp => ?_, fun hc hp => ?_⟩⟩
  · exact exec_gated_unconfigured rfl hb hc
  · exact (exec_gated rfl hb hc).trans (congrArg _ (pulseStartBody_overrun hp dir step))
  · refine ⟨_, (exec_setSpeed_lazy hb hc).symm, fun hd => ⟨_, rfl, ?_⟩, fun hd => ⟨_, rfl, ?_⟩⟩
    · exact (exec_gated rfl hb hc).trans (congrArg _ (pulseStartBody_immediate hp hd dir step))
    · exact (exec_gated rfl hb hc).trans (congrArg _ (pulseStartBody_delayed hp hd dir step))

/-- Settles O34: refusals, reads and register writes leave the engine alone, and an effect that changes its state is a
PULSE_START from idle or a tick at a match. -/
theorem pulseStateMachineComplete : Obligations.PulseStateMachineComplete := by
  intro i s t h hne
  cases exec_answers h with
  | refused => exact absurd rfl hne
  | badRead => exact absurd rfl hne
  | read => exact absurd rfl hne
  | wrote a v r => exact absurd (by rw [write_frame]) hne
  | ran j hij =>
    by_cases hp : area j = .pulse
    · rcases area_eq_pulse hp with ⟨dir, step, rfl⟩ | rfl
      · obtain ⟨hidle, hnext⟩ := pulseStartBody_state hne
        exact .inl ⟨hidle, ⟨dir, step, hij⟩, hnext⟩
      · have hi : i = .ptTick := eq_of_issued hij rfl
        obtain ⟨hm, ⟨hwait, hnext⟩ | ⟨hpulse, hnext⟩⟩ := ptTickEffect_state hne
        · exact .inr (.inl ⟨hwait, hi, hm, hnext⟩)
        · exact .inr (.inr ⟨hpulse, hi, hm, hnext⟩)
    · exact absurd (by rw [((effect_does j s).frame.engine hp).1]) hne

end Sys2Proof.Machine
end

section
/-! The length of a pulse: runs of ticks of the pulse timer (spec/41_stepper.md R187, spec/70_reset_and_hazards.md
R361). -/
namespace Sys2Proof.Machine

/-- Ticks before the match only count. -/
theorem runInstrs_ptTicks_counting {s : State} (hrun : s.pt.run = true) {n : Nat}
    (hn : s.pt.cnt.toNat + n < s.pt.cmp.toNat) :
    runInstrs (List.replicate n .ptTick) s = .next (withPtCount (s.pt.cnt + BitVec.ofNat 32 n) s) := by
  induction n generalizing s with
  | zero =>
    have h0 : s.pt.cnt + BitVec.ofNat 32 0 = s.pt.cnt := BitVec.add_zero _
    rw [h0]
    rfl
  | succ n ih =>
    have hm : s.pt.cnt + 1 ≠ s.pt.cmp := by bv_omega
    have hcnt : (s.pt.cnt + 1).toNat + n < s.pt.cmp.toNat := by bv_omega
    have hsum : s.pt.cnt + 1 + BitVec.ofNat 32 n = s.pt.cnt + BitVec.ofNat 32 (n + 1) := by bv_omega
    rw [List.replicate_succ, runInstrs_cons (exec_ptTick s), ptTickEffect_unmatched hrun hm, ← hsum]
    exact ih (s := withPtCount (s.pt.cnt + 1) s) hrun hcnt

/-- The tick that brings the count to the compare value is the match. -/
theorem runInstrs_ptTicks_match {s : State} (hrun : s.pt.run = true) {n : Nat} (hpos : 1 ≤ n)
    (hn : s.pt.cnt.toNat + n = s.pt.cmp.toNat) :
    runInstrs (List.replicate n .ptTick) s = .next (pulseMatch (withPtCount s.pt.cmp s)) := by
  obtain ⟨m, rfl⟩ := Nat.exists_eq_add_of_le' hpos
  have hm : s.pt.cnt + BitVec.ofNat 32 m + 1 = s.pt.cmp := by bv_omega
  rw [List.replicate_succ', runInstrs_append (runInstrs_ptTicks_counting hrun (by omega)), ← hm]
  exact congrArg _ (ptTickEffect_matched (s := withPtCount (s.pt.cnt + BitVec.ofNat 32 m) s) hrun hm)

/-- A pulse with `w` ticks to its match: the step outputs stand until the `w`-th tick, which ends it. -/
theorem ptTicks_from_pulsing {s : State} (hrun : s.pt.run = true) (hp : s.pe.state = .pulsing) {w n : Nat}
    (hpos : 1 ≤ w) (hw : s.pt.cnt.toNat + w = s.pt.cmp.toNat) (hn : n ≤ w) :
    ∃ t, runInstrs (List.replicate n .ptTick) s = .next t ∧
      (n < w → t.pe.state = .pulsing ∧ t.pe.stepL = s.pe.stepL) ∧
      (n = w → t.pe.state = .idle ∧ t.pe.stepL = 0) ∧
      t.pe.dirL = s.pe.dirL := by
  rcases Nat.lt_or_eq_of_le hn with hlt | rfl
  · exact ⟨_, runInstrs_ptTicks_counting hrun (by omega), fun _ => ⟨hp, rfl⟩, fun he => absurd he (Nat.ne_of_lt hlt),
      rfl⟩
  · refine ⟨_, runInstrs_ptTicks_match hrun hpos hw, fun hlt => absurd hlt (Nat.lt_irrefl _), ?_⟩
    rw [pulseMatch_pulsing (s := withPtCount s.pt.cmp s) hp]
    exact ⟨fun _ => ⟨rfl, rfl⟩, rfl⟩

/-- A wait with `d` ticks to its match and a pulse of `w` ticks after it: the stashed steps are asserted by the `d`-th
tick and de-asserted by the (`d` + `w`)-th. -/
theorem ptTicks_from_waitDelay {s : State} (hrun : s.pt.run = true) (hp : s.pe.state = .waitDelay)
    (hlow : s.pe.stepL = 0) {d w n : Nat} (hdpos : 1 ≤ d) (hwpos : 1 ≤ w)
    (hd : s.pt.cnt.toNat + d = s.pt.cmp.toNat)
    (hw : s.pt.cmp.toNat + w = (s.ac.delayTicks + s.ac.widthTicks).toNat) (hn : n ≤ d + w) :
    ∃ t, runInstrs (List.replicate n .ptTick) s = .next t ∧
      (n < d → t.pe.state = .waitDelay ∧ t.pe.stepL = 0) ∧
      (d ≤ n → n < d + w → t.pe.state = .pulsing ∧ t.pe.stepL = s.pe.stash) ∧
      (n = d + w → t.pe.state = .idle ∧ t.pe.stepL = 0) ∧
      t.pe.dirL = s.pe.dirL := by
  by_cases hlt : n < d
  · exact ⟨_, runInstrs_ptTicks_counting hrun (by omega), fun _ => ⟨hp, hlow⟩,
      fun hle => absurd hlt (Nat.not_lt.mpr hle), fun he => absurd hlt (by omega), rfl⟩
  · obtain ⟨m, rfl⟩ := Nat.exists_eq_add_of_le (Nat.not_lt.mp hlt)
    have hmatch := runInstrs_ptTicks_match hrun hdpos hd
    have hpulse := pulseMatch_waitDelay (s := withPtCount s.pt.cmp s) hp
    obtain ⟨t, ht, hduring, hover, hdir⟩ := ptTicks_from_pulsing (s := pulseMatch (withPtCount s.pt.cmp s))
      (by rw [hpulse]; exact hrun) (by rw [hpulse]) hwpos (by rw [hpulse]; exact hw) (Nat.le_of_add_le_add_left hn)
    rw [hpulse] at hduring hdir
    rw [← List.replicate_append_replicate, runInstrs_append hmatch]
    exact ⟨t, ht, fun h => absurd h hlt, fun _ h => hduring (Nat.lt_of_add_lt_add_left h),
      fun h => hover (Nat.add_left_cancel h), hdir⟩

/-- Settles O33: the timer is armed at 0 for the width or for the delay, and the sum of the two does not wrap. -/
theorem pulseWidthIsExact : Obligations.PulseWidthIsExact := by
  intro s dir step n hb hc hcfg hp hlow
  have hstart : exec (.pulseStart dir step) s = .next (pulseStartBody dir step s) := exec_gated rfl hb hc
  have hwidth := hcfg.width_pos hc
  rw [runInstrs_cons hstart]
  refine ⟨fun hd hn => ?_, fun hd hn => ?_⟩
  · rw [pulseStartBody_immediate hp hd]
    exact ptTicks_from_pulsing rfl rfl hwidth (Nat.zero_add _) hn
  · have hdelay := (hcfg.delayed_iff hc).mp hd
    have hsum : s.ac.delayTicks.toNat + s.ac.widthTicks.toNat =
        ((lazySpindleRefresh s).ac.delayTicks + (lazySpindleRefresh s).ac.widthTicks).toNat := by
      rw [lazySpindleRefresh_ac, BitVec.toNat_add, Nat.mod_eq_of_lt (hcfg.sum_fits hc)]
    rw [pulseStartBody_delayed hp hd]
    refine ptTicks_from_waitDelay rfl rfl ?_ hdelay hwidth (Nat.zero_add _) ?_ hn
    · exact hlow
    · exact hsum

end Sys2Proof.Machine
end

section
/-! The step cycle timer (spec/41_stepper.md R188 to R191). -/
namespace Sys2Proof.Machine

section
variable {s : State}

theorem stTickEffect_off (hen : s.st.en = false) : stTickEffect s = s := by
  rw [stTickEffect, hen, if_neg nofun]

theorem stTickEffect_counts (hen : s.st.en = true) (hlt : (s.st.cnt + 1).toNat < s.st.period.toNat) :
    stTickEffect s = { s with st := { s.st with cnt := s.st.cnt + 1 } } := by
  have hbefore : ¬ s.st.cnt + 1 ≥ s.st.period := Nat.not_le.mpr hlt
  rw [stTickEffect, if_pos hen, if_neg hbefore]

theorem stTickEffect_reloads (hen : s.st.en = true) (hle : s.st.period.toNat ≤ (s.st.cnt + 1).toNat) :
    stTickEffect s = deliver .step { s with st := { s.st with cnt := 0 } } := by
  have hreached : s.st.cnt + 1 ≥ s.st.period := hle
  rw [stTickEffect, if_pos hen, if_pos hreached]

end

/-- Settles O32: three bodies run while no PUTBYTE waits, and the two tests of a tick. -/
theorem stepTimerSteps : Obligations.StepTimerSteps := by
  refine ⟨rfl, rfl, rfl, rfl, fun s => ⟨fun hb => ⟨?_, ?_, ?_⟩, fun hen => ?_, fun hen hlt => ?_, fun hen hle => ?_⟩⟩
  · exact exec_ungated (i := .stepWake) rfl rfl hb
  · exact exec_ungated (i := .stepIdle) rfl rfl hb
  · exact exec_ungated (i := .stepCycles) rfl rfl hb
  · exact congrArg _ (stTickEffect_off hen)
  · exact congrArg _ (stTickEffect_counts hen hlt)
  · exact congrArg _ (stTickEffect_reloads hen hle)

end Sys2Proof.Machine
end

section
/-! The input samplers (spec/42_inputs_debounce.md R211 to R214, spec/44_aux.md R276). -/
namespace Sys2Proof.Machine

/-- A pin's bit of a group's raw levels is the level of the pin's drive. -/
theorem getLsbD_rawBits_pin {w i : Nat} (hi : i < w) {drives : List Drive} {d : Drive} (hd : drives[i]? = some d)
    (pull : BitVec w) : (rawBits drives pull).getLsbD i = rawLevel d (pull.getLsbD i) := by
  rw [getLsbD_rawBits, decide_eq_true hi, Bool.true_and, List.getD_eq_getElem?_getD, hd, Option.getD_some]

/-- A bit of the axis mask is an axis, for every number of axes. -/
theorem lt_nAxes_of_axisMask {p : Params} {k : Nat} (h : p.axisMask.getLsbD k = true) : k < p.nAxes := by
  rw [Params.axisMask, BitVec.getLsbD_ofNat, Nat.testBit_two_pow_sub_one, Bool.and_eq_true, decide_eq_true_eq] at h
  exact of_decide_eq_true h.2

theorem lt_nAxes_of_onAxes {p : Params} {v : BitVec 8} (h : onAxes p v = true) {k : Nat}
    (hk : v.getLsbD k = true) : k < p.nAxes := by
  rw [← onAxes_iff.mp h, BitVec.getLsbD_and, Bool.and_eq_true] at hk
  exact lt_nAxes_of_axisMask hk.2

/-- A limit pin's logical state: the level of its drive, inverted where `limInv` says so. -/
theorem getLsbD_limLogical_pin {s : State} (hn : s.par.nAxes ≤ 8) {i : Nat} (hi : i < s.par.nAxes) {d : Drive}
    (hd : s.limDrv[i]? = some d) :
    (limLogical s).getLsbD i = (rawLevel d (s.ac.limPull.getLsbD i) ^^ s.ac.limInv.getLsbD i) := by
  rw [limLogical, limRaw, BitVec.getLsbD_xor, BitVec.getLsbD_and, getLsbD_rawBits_pin (by omega) hd,
    getLsbD_axisMask _ hn, decide_eq_true hi, Bool.and_true]

/-- A control pin's logical state. -/
theorem getLsbD_ctlLogical_pin {s : State} {i : Nat} (hi : i < 4) {d : Drive} (hd : s.ctlDrv[i]? = some d) :
    (ctlLogical s).getLsbD i = (rawLevel d (s.ac.ctlPull.getLsbD i) ^^ s.ac.ctlInv.getLsbD i) := by
  rw [ctlLogical, ctlRaw, BitVec.getLsbD_xor, getLsbD_rawBits_pin hi hd]

theorem zext32_ctlDecode (l : BitVec 4) : zext32 (ctlDecode l) =
    if l.getLsbD 0 then 0b0001 else if l.getLsbD 3 then 0b1000 else if l.getLsbD 1 then 0b0010
    else if l.getLsbD 2 then 0b0100 else 0 := by
  simp only [ctlDecode, apply_ite zext32]
  rfl

theorem flagWord_xor (a b : Bool) : flagWord (a ^^ b) = if a = b then 0 else 1 := by
  cases a <;> cases b <;> rfl

/-- Settles O35: each sampler writes its logical state to RESULT; `WidthInv` says how many pins have a drive. -/
theorem samplersReturnLogicalState : Obligations.SamplersReturnLogicalState := by
  refine ⟨rfl, rfl, rfl, fun s hn hw hb => ⟨⟨zext32 (limLogical s), ?_, fun i d hd => ?_, fun i hi => ?_⟩,
    ⟨zext32 (ctlDecode (ctlLogical s)), ctlLogical s, ?_, fun i d hd => ?_, zext32_ctlDecode _⟩, ?_⟩⟩
  · exact exec_ungated (i := .getLimits) rfl rfl hb
  · obtain ⟨hi, -⟩ := List.getElem?_eq_some_iff.mp hd
    rw [hw.lim_pins] at hi
    rw [getLsbD_zext32, decide_eq_true (by omega), Bool.true_and, getLsbD_limLogical_pin hn hi hd]
    cases d <;> rfl
  · have hlow : (limLogical s).getLsbD i = false :=
      Bool.eq_false_iff.mpr fun h => Nat.not_lt.mpr hi (lt_nAxes_of_onAxes (limLogical_onAxes hw.ac_lim) h)
    rw [getLsbD_zext32, hlow, Bool.and_false]
  · exact exec_ungated (i := .getControl) rfl rfl hb
  · obtain ⟨hi, -⟩ := List.getElem?_eq_some_iff.mp hd
    rw [hw.ctl_pins] at hi
    rw [getLsbD_ctlLogical_pin hi hd]
    cases d <;> rfl
  · have hword := congrArg (fun v => returns v s) (flagWord_xor (prbRaw s) s.ac.prbInv)
    exact (exec_ungated (i := .getProbe) rfl rfl hb).trans (congrArg _ hword)

end Sys2Proof.Machine
end

section
/-! The debounce machine and the pin stimuli, one step at a time (spec/42_inputs_debounce.md R215 to R220, R222,
spec/44_aux.md R277). -/
namespace Sys2Proof.Machine

/-! ## LIMITS_ENABLE and one tick -/

section
variable {s : State}

theorem limitsEnableBody_arms (hidle : s.db.state = .idle) :
    limitsEnableBody true s = { s with db := { s.db with state := .armed } } := if_pos hidle

theorem limitsEnableBody_enabled (hactive : s.db.state ≠ .idle) : limitsEnableBody true s = s := if_neg hactive

theorem limitsEnableBody_disarms : limitsEnableBody false s = { s with db := { state := .idle, cnt := 0 } } := rfl

/-- LIMITS_ENABLE changes the state to ARMED from IDLE, or to IDLE. -/
theorem limitsEnableBody_state {f : Bool} (hne : (limitsEnableBody f s).db.state ≠ s.db.state) :
    s.db.state = .idle ∧ f = true ∧ (limitsEnableBody f s).db.state = .armed ∨
      s.db.state ≠ .idle ∧ f = false ∧ (limitsEnableBody f s).db.state = .idle := by
  cases f with
  | false => exact .inr ⟨hne.symm, rfl, rfl⟩
  | true =>
    by_cases hidle : s.db.state = .idle
    · exact .inl ⟨hidle, rfl, by rw [limitsEnableBody_arms hidle]⟩
    · exact absurd (by rw [limitsEnableBody_enabled hidle]) hne

/-- `s` with the settle window's count at `c`: all that a tick before the last changes. -/
def withDbCount (c : BitVec 8) (s : State) : State := { s with db := { s.db with cnt := c } }

theorem dbTickEffect_stopped (hstop : s.db.state ≠ .counting) : dbTickEffect s = s := if_neg hstop

theorem dbTickEffect_counts (hcount : s.db.state = .counting) (hc : s.db.cnt ≠ 1) :
    dbTickEffect s = withDbCount (s.db.cnt - 1) s := by
  have hleft : s.db.cnt - 1 ≠ 0 := by bv_omega
  rw [dbTickEffect, if_pos hcount]
  exact if_neg hleft

theorem dbTickEffect_settles (hcount : s.db.state = .counting) (hc : s.db.cnt = 1) :
    dbTickEffect s = deliver (.limit (limLogical s)) { s with db := { state := .armed, cnt := 0 } } := by
  rw [dbTickEffect, if_pos hcount, hc]
  exact if_pos rfl

/-- A tick changes the state at the last count only, from COUNTING to ARMED. -/
theorem dbTickEffect_state (hne : (dbTickEffect s).db.state ≠ s.db.state) :
    s.db.state = .counting ∧ s.db.cnt = 1 ∧ (dbTickEffect s).db.state = .armed := by
  by_cases hcount : s.db.state = .counting
  · by_cases hc : s.db.cnt = 1
    · exact ⟨hcount, hc, by rw [dbTickEffect_settles hcount hc]; rfl⟩
    · exact absurd (by rw [dbTickEffect_counts hcount hc]; rfl) hne
  · exact absurd (by rw [dbTickEffect_stopped hcount]) hne

end

theorem encode_limitsEnable (f : Bool) :
    encode (.limitsEnable f) = .word (if f then 0x22000001 else 0x22000000) := by
  cases f <;> rfl

theorem encode_prbIn (f l : Bool) : encode (.prbIn f l) =
    .word (BitVec.ofNat 32 (0x88000000 + (if f then 256 else 0) + if l then 1 else 0)) := by
  cases f <;> cases l <;> rfl

/-- Settles O36: the three bodies of LIMITS_ENABLE, and the drive of the probe. -/
theorem limitsEnableAndProbeIn : Obligations.LimitsEnableAndProbeIn := by
  refine ⟨encode_limitsEnable, encode_prbIn, fun s => ⟨fun hb hidle => ?_, fun hb hactive => ?_, fun hb => ?_,
    fun f l => rfl⟩⟩
  · exact (exec_ungated (i := .limitsEnable true) rfl rfl hb).trans (congrArg _ (limitsEnableBody_arms hidle))
  · exact (exec_ungated (i := .limitsEnable true) rfl rfl hb).trans (congrArg _ (limitsEnableBody_enabled hactive))
  · exact (exec_ungated (i := .limitsEnable false) rfl rfl hb).trans (congrArg _ limitsEnableBody_disarms)

/-- Settles O39: the two tests of a tick. -/
theorem debounceTick : Obligations.DebounceTick :=
  ⟨rfl, fun _ => ⟨fun hstop => congrArg _ (dbTickEffect_stopped hstop),
    fun hcount hc => congrArg _ (dbTickEffect_counts hcount hc),
    fun hcount hc => congrArg _ (dbTickEffect_settles hcount hc)⟩⟩

/-! ## Drives and edges -/

theorem drivenBy_drivesOf {w : Nat} (n : Nat) (f l : BitVec w) : drivenBy n f l (drivesOf n f l) := by
  refine ⟨length_drivesOf n f l, fun i hi => ?_⟩
  rw [drivesOf, List.getElem?_map, List.getElem?_range hi]
  rfl

theorem rises_eq_false_iff {w : Nat} (old new : BitVec w) :
    rises old new = false ↔ ∀ k, k < w → old.getLsbD k = true ∨ new.getLsbD k = false := by
  rw [Bool.eq_false_iff, ne_eq, rises_iff]
  simp only [not_exists, not_and]
  refine forall₂_congr fun k _ => ?_
  cases old.getLsbD k <;> simp

/-- A stimulus word of two operands, the first at bit 8. -/
theorem word_of_pair (op hi lo : Nat) : Frame.word (wordOf op (hi * 2 ^ 8 + lo)) =
    .word (BitVec.ofNat 32 (op * 2 ^ 24 + hi * 256 + lo)) :=
  congrArg (fun n => Frame.word (BitVec.ofNat 32 n)) (Nat.add_assoc (op * 2 ^ 24) (hi * 256) lo).symm

/-- `s` with the limit pins driven as an @LIM_IN of `f` and `l` drives them. -/
def driveLimits (f l : Byte) (s : State) : State := { s with limDrv := drivesOf s.par.nAxes f l }

/-- `s` with the control pins driven as an @CTL_IN of `f` and `l` drives them. -/
def driveControls (f l : BitVec 4) (s : State) : State := { s with ctlDrv := drivesOf 4 f l }

section
variable {s : State} {f l : Byte}

theorem limInEffect_edge (hedge : rises (limLogical s) (limLogical (driveLimits f l s)) = true)
    (hactive : s.db.state ≠ .idle) : limInEffect f l s = limitEdge (driveLimits f l s) := by
  have hqual : (rises (limLogical s) (limLogical (driveLimits f l s)) && s.db.state != .idle) = true :=
    Bool.and_eq_true_iff.mpr ⟨hedge, bne_iff_ne.mpr hactive⟩
  exact if_pos hqual

theorem limInEffect_opens_window (hedge : rises (limLogical s) (limLogical (driveLimits f l s)) = true)
    (hactive : s.db.state ≠ .idle) (hsw : s.ac.swDebounce = true) :
    limInEffect f l s =
      { driveLimits f l s with db := { state := .counting, cnt := s.par.debounceTicks } } :=
  (limInEffect_edge hedge hactive).trans (if_pos hsw)

theorem limInEffect_reports (hedge : rises (limLogical s) (limLogical (driveLimits f l s)) = true)
    (hactive : s.db.state ≠ .idle) (hsw : s.ac.swDebounce = false) :
    limInEffect f l s = deliver (.limit (limLogical (driveLimits f l s))) (driveLimits f l s) :=
  (limInEffect_edge hedge hactive).trans (if_neg (Bool.eq_false_iff.mp hsw))

theorem limInEffect_only_drives
    (hno : rises (limLogical s) (limLogical (driveLimits f l s)) = false ∨ s.db.state = .idle) :
    limInEffect f l s = driveLimits f l s := by
  refine if_neg (fun hqual => ?_)
  obtain ⟨hedge, hactive⟩ := Bool.and_eq_true_iff.mp hqual
  rcases hno with h | h
  · exact Bool.eq_false_iff.mp h hedge
  · exact bne_iff_ne.mp hactive h

end

section
variable {s : State} {f l : BitVec 4}

theorem ctlInEffect_reports (hedge : rises (ctlLogical s) (ctlLogical (driveControls f l s)) = true) :
    ctlInEffect f l s =
      deliver (.control (ctlDecode (ctlLogical (driveControls f l s)))) (driveControls f l s) := if_pos hedge

theorem ctlInEffect_only_drives (hno : rises (ctlLogical s) (ctlLogical (driveControls f l s)) = false) :
    ctlInEffect f l s = driveControls f l s := if_neg (Bool.eq_false_iff.mp hno)

end

/-- Settles O37: a qualifying edge with debounce on and off, and every other @LIM_IN. -/
theorem limitInputEdges : Obligations.LimitInputEdges := by
  refine ⟨fun f l => word_of_pair 0x86 f.toNat l.toNat, fun s f l =>
    ⟨driveLimits f l s, drivenBy_drivesOf _ f l, rfl, fun hedge hactive hsw => ?_, fun hedge hactive hsw => ?_,
      fun hno => ?_⟩⟩
  · exact congrArg _ (limInEffect_opens_window ((rises_iff _ _).mpr hedge) hactive hsw)
  · exact congrArg _ (limInEffect_reports ((rises_iff _ _).mpr hedge) hactive hsw)
  · exact congrArg _ (limInEffect_only_drives (hno.imp_left (rises_eq_false_iff _ _).mpr))

/-- Settles O38: an edge delivers the decode of the new state, and without one only the drives change. -/
theorem controlInputEdges : Obligations.ControlInputEdges := by
  refine ⟨fun f l => word_of_pair 0x87 f.toNat l.toNat, fun s f l =>
    ⟨driveControls f l s, drivenBy_drivesOf 4 f l, rfl, fun hedge => ?_, fun hno => ?_⟩⟩
  · exact congrArg _ (ctlInEffect_reports ((rises_iff _ _).mpr hedge))
  · exact congrArg _ (ctlInEffect_only_drives ((rises_eq_false_iff _ _).mpr hno))

/-! ## The state machine, complete -/

/-- Off the axes a bit of the logical limit state is its invert bit. -/
theorem getLsbD_limLogical_off_axes {s : State} {k : Nat} (hmask : s.par.axisMask.getLsbD k = false) :
    (limLogical s).getLsbD k = s.ac.limInv.getLsbD k := by
  rw [limLogical, limRaw, BitVec.getLsbD_xor, BitVec.getLsbD_and, hmask, Bool.and_false, Bool.false_xor]

/-- New drives raise a logical limit bit of an axis only. -/
theorem lt_nAxes_of_driveLimits_rises {s : State} {f l : Byte} {k : Nat} (hlow : (limLogical s).getLsbD k = false)
    (hhigh : (limLogical (driveLimits f l s)).getLsbD k = true) : k < s.par.nAxes := by
  refine lt_nAxes_of_axisMask (Bool.of_not_eq_false fun hmask => ?_)
  have hbefore := getLsbD_limLogical_off_axes hmask
  have hafter := getLsbD_limLogical_off_axes (s := driveLimits f l s) hmask
  have hsame : (limLogical (driveLimits f l s)).getLsbD k = (limLogical s).getLsbD k := hafter.trans hbefore.symm
  rw [hsame, hlow] at hhigh
  cases hhigh

/-- An @LIM_IN changes the state by a qualifying edge with debounce on only, from ARMED to COUNTING. -/
theorem limInEffect_state {s : State} {f l : Byte} (hne : (limInEffect f l s).db.state ≠ s.db.state) :
    s.db.state = .armed ∧ s.ac.swDebounce = true ∧ (limInEffect f l s).db.state = .counting ∧
      ∃ k, k < s.par.nAxes ∧ (limLogical s).getLsbD k = false ∧
        (limLogical (limInEffect f l s)).getLsbD k = true := by
  cases hedge : rises (limLogical s) (limLogical (driveLimits f l s)) with
  | false => exact absurd (by rw [limInEffect_only_drives (.inl hedge)]; rfl) hne
  | true =>
    by_cases hidle : s.db.state = .idle
    · exact absurd (by rw [limInEffect_only_drives (.inr hidle)]; rfl) hne
    · cases hsw : s.ac.swDebounce with
      | false => exact absurd (by rw [limInEffect_reports hedge hidle hsw]; rfl) hne
      | true =>
        rw [limInEffect_opens_window hedge hidle hsw] at hne ⊢
        have harmed : s.db.state = .armed := by
          cases hst : s.db.state with
          | idle => exact absurd hst hidle
          | armed => rfl
          | counting => exact absurd hst.symm hne
        obtain ⟨k, -, hlow, hhigh⟩ := (rises_iff _ _).mp hedge
        exact ⟨harmed, rfl, rfl, k, lt_nAxes_of_driveLimits_rises hlow hhigh, hlow, hhigh⟩

/-- Settles O40: refusals, reads and register writes leave the debounce machine alone, and an effect that changes its
state is a LIMITS_ENABLE, a qualifying edge of @LIM_IN or the last tick of a window. -/
theorem debounceStateMachineComplete : Obligations.DebounceStateMachineComplete := by
  intro i s t h hne
  cases exec_answers h with
  | refused => exact absurd rfl hne
  | badRead => exact absurd rfl hne
  | read => exact absurd rfl hne
  | wrote a v r => exact absurd (by rw [write_frame]) hne
  | ran j hij =>
    by_cases hp : area j = .limits
    · rcases area_eq_limits hp with rfl | ⟨f, rfl⟩ | rfl | ⟨f, l, rfl⟩
      · exact absurd rfl hne
      · rcases limitsEnableBody_state hne with ⟨hidle, rfl, hnext⟩ | ⟨hactive, rfl, hnext⟩
        · exact .inl ⟨hidle, hij, hnext⟩
        · exact .inr (.inr (.inr ⟨hactive, hij, hnext⟩))
      · obtain ⟨hcount, hlast, hnext⟩ := dbTickEffect_state hne
        exact .inr (.inr (.inl ⟨hcount, eq_of_issued hij rfl, hlast, hnext⟩))
      · obtain ⟨harmed, hsw, hnext, hedge⟩ := limInEffect_state hne
        exact .inr (.inl ⟨harmed, ⟨f, l, eq_of_issued hij rfl⟩, hsw, hnext, hedge⟩)
    · exact absurd (by rw [((effect_does j s).frame.limits hp).2]) hne

end Sys2Proof.Machine
end

section
/-! Countdowns: runs of ticks of a settle window and of the millisecond delay (spec/42_inputs_debounce.md R221,
spec/44_aux.md R279, R280, spec/70_reset_and_hazards.md R361). -/
namespace Sys2Proof.Machine

/-- An instruction repeated runs through a sequence of states each of which it takes to the next. -/
theorem runInstrs_replicate {i : Instr} {states : Nat → State} {n : Nat}
    (hstep : ∀ k, k < n → exec i (states k) = .next (states (k + 1))) :
    runInstrs (List.replicate n i) (states 0) = .next (states n) := by
  induction n with
  | zero => rfl
  | succ n ih =>
    have hbefore := ih fun k hk => hstep k (Nat.lt_succ_of_lt hk)
    rw [List.replicate_succ', runInstrs_append hbefore, runInstrs_cons (hstep n (Nat.lt_succ_self n)), runInstrs]

/-! ## A settle window -/

/-- Ticks before the last only count. -/
theorem runInstrs_dbTicks_counting {s : State} (hcount : s.db.state = .counting) {n : Nat} (hn : n < s.db.cnt.toNat) :
    runInstrs (List.replicate n .dbTick) s = .next (withDbCount (s.db.cnt - BitVec.ofNat 8 n) s) := by
  have h0 : withDbCount (s.db.cnt - BitVec.ofNat 8 0) s = s := by rw [BitVec.sub_zero]; rfl
  conv_lhs => rw [← h0]
  refine runInstrs_replicate (states := fun k => withDbCount (s.db.cnt - BitVec.ofNat 8 k) s) fun k hk => ?_
  have hleft : s.db.cnt - BitVec.ofNat 8 k ≠ 1 := by bv_omega
  have hnext : s.db.cnt - BitVec.ofNat 8 k - 1 = s.db.cnt - BitVec.ofNat 8 (k + 1) := by bv_omega
  rw [← hnext]
  exact congrArg _ (dbTickEffect_counts (s := withDbCount (s.db.cnt - BitVec.ofNat 8 k) s) hcount hleft)

/-- The tick that uses up the count delivers CB_LIMIT. -/
theorem runInstrs_dbTicks_settles {s : State} (hcount : s.db.state = .counting) (hpos : s.db.cnt ≠ 0) :
    runInstrs (List.replicate s.db.cnt.toNat .dbTick) s =
      .next (deliver (.limit (limLogical s)) { s with db := { state := .armed, cnt := 0 } }) := by
  obtain ⟨m, hm⟩ : ∃ m, s.db.cnt.toNat = m + 1 := Nat.exists_eq_add_of_le' (by bv_omega)
  have hlast : s.db.cnt - BitVec.ofNat 8 m = 1 := by bv_omega
  rw [hm, List.replicate_succ', runInstrs_append (runInstrs_dbTicks_counting hcount (by omega)), hlast]
  exact congrArg _ (dbTickEffect_settles (s := withDbCount 1 s) hcount rfl)

/-! ## The millisecond delay -/

/-- `s` with a delay of `c` ticks to go, its callback wanted. -/
def withDelay (c : BitVec 16) (s : State) : State := { s with dl := { cnt := c, cb := true } }

theorem delayMsBody_arms {ms : BitVec 16} (hms : ms ≠ 0) (s : State) : delayMsBody true ms s = withDelay ms s :=
  if_neg fun h => hms h.1

section
variable {s : State}

theorem msTickEffect_counts (hrun : s.dl.cnt ≠ 0) (hc : s.dl.cnt ≠ 1) :
    msTickEffect s = { s with dl := { s.dl with cnt := s.dl.cnt - 1 } } := by
  have hleft : s.dl.cnt - 1 ≠ 0 := by bv_omega
  rw [msTickEffect, if_neg hrun]
  exact if_neg fun h => hleft h.1

theorem msTickEffect_elapses (hc : s.dl.cnt = 1) (hcb : s.dl.cb = true) :
    msTickEffect s = deliver .delay { s with dl := { cnt := 0, cb := false } } := by
  rw [msTickEffect, hc, hcb, if_neg nofun]
  exact if_pos ⟨rfl, rfl⟩

end

/-- Ticks before the last only count. -/
theorem runInstrs_msTicks_counting {c : BitVec 16} {n : Nat} (hn : n < c.toNat) (s : State) :
    runInstrs (List.replicate n .msTick) (withDelay c s) = .next (withDelay (c - BitVec.ofNat 16 n) s) := by
  have h0 : c - BitVec.ofNat 16 0 = c := BitVec.sub_zero c
  conv_lhs => rw [← h0]
  refine runInstrs_replicate (states := fun k => withDelay (c - BitVec.ofNat 16 k) s) fun k hk => ?_
  have hrun : c - BitVec.ofNat 16 k ≠ 0 := by bv_omega
  have hleft : c - BitVec.ofNat 16 k ≠ 1 := by bv_omega
  have hnext : c - BitVec.ofNat 16 k - 1 = c - BitVec.ofNat 16 (k + 1) := by bv_omega
  rw [← hnext]
  exact congrArg _ (msTickEffect_counts (s := withDelay (c - BitVec.ofNat 16 k) s) hrun hleft)

/-- The tick that uses up the delay delivers CB_DELAY. -/
theorem runInstrs_msTicks_elapses {c : BitVec 16} (hpos : c ≠ 0) (s : State) :
    runInstrs (List.replicate c.toNat .msTick) (withDelay c s) =
      .next (deliver .delay { s with dl := { cnt := 0, cb := false } }) := by
  obtain ⟨m, hm⟩ : ∃ m, c.toNat = m + 1 := Nat.exists_eq_add_of_le' (by bv_omega)
  have hlast : c - BitVec.ofNat 16 m = 1 := by bv_omega
  rw [hm, List.replicate_succ', runInstrs_append (runInstrs_msTicks_counting (by omega) s), hlast]
  exact congrArg _ (msTickEffect_elapses (s := withDelay 1 s) rfl rfl)

/-- Settles O50: each countdown before its last tick and at it. -/
theorem countdownsElapseExactly : Obligations.CountdownsElapseExactly := by
  refine ⟨fun s n hcount hpos hn => ?_, fun s ms n hb hms hn => ?_⟩
  · rcases Nat.lt_or_eq_of_le hn with hlt | rfl
    · exact ⟨_, runInstrs_dbTicks_counting hcount hlt, fun _ => ⟨hcount, rfl, rfl⟩,
        fun he => absurd he (Nat.ne_of_lt hlt)⟩
    · exact ⟨_, runInstrs_dbTicks_settles hcount hpos, fun hlt => absurd hlt (Nat.lt_irrefl _),
        fun _ => ⟨rfl, rfl, rfl, rfl⟩⟩
  · have hstart : exec (.delayMs true ms) s = .next (withDelay ms s) :=
      (exec_ungated (i := .delayMs true ms) rfl rfl hb).trans (congrArg _ (delayMsBody_arms hms s))
    rw [runInstrs_cons hstart]
    rcases Nat.lt_or_eq_of_le hn with hlt | rfl
    · have hleft : (ms - BitVec.ofNat 16 n).toNat = ms.toNat - n := by bv_omega
      exact ⟨_, runInstrs_msTicks_counting hlt s, hleft, fun _ => ⟨rfl, rfl⟩, fun he => absurd he (Nat.ne_of_lt hlt)⟩
    · exact ⟨_, runInstrs_msTicks_elapses hms s, (Nat.sub_self _).symm, fun hlt => absurd hlt (Nat.lt_irrefl _),
        fun _ => ⟨rfl, rfl, rfl⟩⟩

end Sys2Proof.Machine
end

section
/-! The spindle's speed mapping (spec/43_spindle.md R248, R249, R254): the three policies, each said once, and the
arithmetic of the third. -/
namespace Sys2Proof.Machine

/-- The duty of policy 3: the interpolated duty, never above full on. -/
def clampedDuty (s : State) (scaled : Nat) : Nat := min (interpolatedDuty s scaled) (fullOnDuty s)

theorem clampedDuty_eq_ite (s : State) (scaled : Nat) :
    clampedDuty s scaled =
      if s.pw.maxValue.toNat ≤ interpolatedDuty s scaled then fullOnDuty s else interpolatedDuty s scaled := by
  rw [clampedDuty, fullOnDuty]
  split <;> omega

theorem clampedDuty_le_fullOnDuty (s : State) (scaled : Nat) : clampedDuty s scaled ≤ fullOnDuty s :=
  Nat.min_le_right _ _

/-- A duty up to full on fits the 16 bits of the PWM. -/
theorem toNat_ofNat_duty {s : State} {d : Nat} (h : d ≤ fullOnDuty s) : (BitVec.ofNat 16 d).toNat = d := by
  have hfits : d < 2 ^ 16 := (h.trans (Nat.sub_le _ 1)).trans_lt s.pw.maxValue.isLt
  rw [BitVec.toNat_ofNat, Nat.mod_eq_of_lt hfits]

/-! ## The policies -/

section
variable {s : State} {rpm : Word} {ovr : Byte}

/-- Policy 1: no usable range, or a speed at or above its upper end. -/
theorem computePwm_full_on
    (h : s.ac.rpmMax.toNat ≤ s.ac.rpmMin.toNat ∨ 100 * s.ac.rpmMax.toNat ≤ rpm.toNat * ovr.toNat) :
    computePwm s rpm ovr = (BitVec.ofNat 16 (fullOnDuty s), s.ac.rpmMax) := if_pos h

/-- The case split of the policies in a usable range, below its upper end. -/
theorem computePwm_below_max (hrange : s.ac.rpmMin.toNat < s.ac.rpmMax.toNat)
    (hbelow : rpm.toNat * ovr.toNat < 100 * s.ac.rpmMax.toNat) :
    computePwm s rpm ovr =
      if rpm.toNat * ovr.toNat ≤ 100 * s.ac.rpmMin.toNat then
        if rpm.toNat * ovr.toNat = 0 then (s.pw.offValue, 0) else (s.pw.minValue, s.ac.rpmMin)
      else
        (BitVec.ofNat 16 (clampedDuty s (rpm.toNat * ovr.toNat)), BitVec.ofNat 32 (rpm.toNat * ovr.toNat / 100)) := by
  rw [clampedDuty_eq_ite]
  exact if_neg (by omega)

variable (hrange : s.ac.rpmMin.toNat < s.ac.rpmMax.toNat)
include hrange

/-- Policy 2 at speed 0. -/
theorem computePwm_off (hzero : rpm.toNat * ovr.toNat = 0) : computePwm s rpm ovr = (s.pw.offValue, 0) := by
  rw [computePwm_below_max hrange (by omega), if_pos (by omega), if_pos hzero]

/-- Policy 2 at every other speed up to the lower end of the range. -/
theorem computePwm_slowest (hpos : rpm.toNat * ovr.toNat ≠ 0)
    (hlow : rpm.toNat * ovr.toNat ≤ 100 * s.ac.rpmMin.toNat) :
    computePwm s rpm ovr = (s.pw.minValue, s.ac.rpmMin) := by
  rw [computePwm_below_max hrange (by omega), if_pos hlow, if_neg hpos]

/-- Policy 3: between the ends of the range. -/
theorem computePwm_interpolates (hbelow : rpm.toNat * ovr.toNat < 100 * s.ac.rpmMax.toNat)
    (habove : 100 * s.ac.rpmMin.toNat < rpm.toNat * ovr.toNat) :
    computePwm s rpm ovr =
      (BitVec.ofNat 16 (clampedDuty s (rpm.toNat * ovr.toNat)), BitVec.ofNat 32 (rpm.toNat * ovr.toNat / 100)) := by
  rw [computePwm_below_max hrange hbelow, if_neg (by omega)]

end

/-! ## The interpolated duty -/

theorem interpolatedDuty_mono (s : State) {a b : Nat} (h : a ≤ b) : interpolatedDuty s a ≤ interpolatedDuty s b :=
  Nat.add_le_add_right (Nat.div_le_div_right (Nat.mul_le_mul_right _ (Nat.sub_le_sub_right h _))) _

theorem minValue_le_interpolatedDuty (s : State) (scaled : Nat) :
    s.pw.minValue.toNat ≤ interpolatedDuty s scaled := Nat.le_add_left _ _

theorem clampedDuty_mono (s : State) {a b : Nat} (h : a ≤ b) : clampedDuty s a ≤ clampedDuty s b :=
  min_le_min_right _ (interpolatedDuty_mono s h)

/-- Where the duties leave room the clamp keeps the lower bound. -/
theorem minValue_le_clampedDuty {s : State} (hroom : s.pw.minValue.toNat < s.pw.maxValue.toNat) (scaled : Nat) :
    s.pw.minValue.toNat ≤ clampedDuty s scaled :=
  le_min (minValue_le_interpolatedDuty s scaled) (Nat.le_sub_one_of_lt hroom)

section
variable {s : State} (hinv : ConfigInv s) (hc : s.configured = true)
include hinv hc

/-- The gradient of an applied configuration is that of its two ranges. -/
theorem interpolatedDuty_eq (scaled : Nat) :
    interpolatedDuty s scaled =
      ((scaled - 100 * s.ac.rpmMin.toNat) * (s.pw.maxValue.toNat - s.pw.minValue.toNat)) /
        (100 * (s.ac.rpmMax.toNat - s.ac.rpmMin.toNat)) + s.pw.minValue.toNat := by
  rw [interpolatedDuty, hinv.gnum_eq hc, hinv.gden_eq hc]

/-- Below the upper end of the speeds the interpolated duty stays below the upper end of the duties: the fraction of
the speed range is less than 1. -/
theorem interpolatedDuty_lt_maxValue (hroom : s.pw.minValue.toNat < s.pw.maxValue.toNat)
    (hrange : s.ac.rpmMin.toNat < s.ac.rpmMax.toNat) {scaled : Nat} (hbelow : scaled < 100 * s.ac.rpmMax.toNat) :
    interpolatedDuty s scaled < s.pw.maxValue.toNat := by
  have hspeed : scaled - 100 * s.ac.rpmMin.toNat < 100 * (s.ac.rpmMax.toNat - s.ac.rpmMin.toNat) := by omega
  have hduty := Nat.div_lt_of_lt_mul (Nat.mul_lt_mul_of_pos_right hspeed (Nat.sub_pos_of_lt hroom))
  rw [interpolatedDuty_eq hinv hc]
  omega

end

/-! ## COMPUTE_PWM -/

/-- COMPUTE_PWM writes the pair of the mapping to RESULT and RESULT1, and the speed to `sp.effRpm`. -/
theorem computePwmBody_eq (ovr : Byte) (s : State) :
    computePwmBody ovr s =
      { s with
        result := BitVec.ofNat 32 (computePwm s s.arg0 ovr).1.toNat
        result1 := BitVec.ofNat 32 (computePwm s s.arg0 ovr).2.toNat
        sp := { s.sp with effRpm := BitVec.ofNat 32 (computePwm s s.arg0 ovr).2.toNat } } := by
  rw [BitVec.ofNat_toNat, BitVec.ofNat_toNat, BitVec.setWidth_eq]
  rfl

/-- Settles O41: the mapping's pair is the one returned, and each policy gives its two numbers. -/
theorem computePwmPolicies : Obligations.ComputePwmPolicies := by
  refine ⟨fun _ => rfl, fun s ovr hb hinv => ⟨exec_gated_unconfigured rfl hb, fun hc => ?_⟩⟩
  refine ⟨(computePwm s s.arg0 ovr).1.toNat, (computePwm s s.arg0 ovr).2.toNat, ?_, BitVec.isLt _, BitVec.isLt _,
    fun hfull => ?_, fun hrange hbelow hlow => ⟨fun hzero => ?_, fun hpos => ?_⟩, fun hrange hbelow habove => ?_⟩
  · exact (exec_gated rfl hb hc).trans (congrArg _ (computePwmBody_eq ovr s))
  · rw [computePwm_full_on hfull]
    exact ⟨toNat_ofNat_duty le_rfl, rfl⟩
  · rw [computePwm_off hrange hzero, hinv.off_zero]
    exact ⟨rfl, rfl⟩
  · rw [computePwm_slowest hrange hpos hlow]
    exact ⟨rfl, rfl⟩
  · have heff : s.arg0.toNat * ovr.toNat / 100 < 2 ^ 32 :=
      (Nat.div_lt_of_lt_mul hbelow).trans s.ac.rpmMax.isLt
    rw [computePwm_interpolates hrange hbelow habove, ← interpolatedDuty_eq hinv hc]
    refine ⟨?_, by rw [BitVec.toNat_ofNat, Nat.mod_eq_of_lt heff]⟩
    rintro d rfl
    exact ⟨(toNat_ofNat_duty (clampedDuty_le_fullOnDuty s _)).trans (clampedDuty_eq_ite s _),
      fun hroom => interpolatedDuty_lt_maxValue hinv hc hroom hrange hbelow⟩

/-- Between the ends of the range and without an override the duty is that of policy 3. -/
theorem computePwm_duty_between {s : State} {rpm : Word} (habove : s.ac.rpmMin.toNat < rpm.toNat)
    (hbelow : rpm.toNat < s.ac.rpmMax.toNat) : (computePwm s rpm 100).1.toNat = clampedDuty s (rpm.toNat * 100) := by
  have hscaled : rpm.toNat * (100 : Byte).toNat = rpm.toNat * 100 := rfl
  rw [computePwm_interpolates (habove.trans hbelow) (by omega) (by omega), hscaled,
    toNat_ofNat_duty (clampedDuty_le_fullOnDuty s _)]

/-- Settles O42: the two ends by policies 2 and 1, and the bounds and the order of policy 3's duties between them. -/
theorem pwmMappingMonotone : Obligations.PwmMappingMonotone := by
  intro s _ _ hrange
  have hmax : computePwm s s.ac.rpmMax 100 = (BitVec.ofNat 16 (fullOnDuty s), s.ac.rpmMax) :=
    computePwm_full_on (.inr (Nat.mul_comm 100 s.ac.rpmMax.toNat).le)
  refine ⟨computePwm_off hrange (Nat.zero_mul _), ⟨?_, ?_⟩, fun a b ha hab hb => ?_⟩
  · rw [hmax]
    exact toNat_ofNat_duty le_rfl
  · rw [hmax]
  · rw [computePwm_duty_between ha (hab.trans_lt hb), computePwm_duty_between (ha.trans_le hab) hb]
    exact ⟨fun hroom => minValue_le_clampedDuty hroom _, clampedDuty_mono s (Nat.mul_le_mul_right 100 hab),
      clampedDuty_le_fullOnDuty s _⟩

end Sys2Proof.Machine
end

section
/-! The spindle's commands on the outputs (spec/43_spindle.md R250, R252, R253) and the coolant's (spec/44_aux.md R274,
R275, R281). -/
namespace Sys2Proof.Machine

/-! ## SET_SPEED -/

theorem setSpeed_off (s : State) :
    setSpeed s.pw.offValue s =
      { s with
        pwm := { s.pwm with en := false }
        sp := { s.sp with enabled := s.sp.enabled && !s.ac.offOnZero, applied := s.pw.offValue }
        spnPwmCmd := s.pw.offValue } := by
  have henabled : (if s.ac.offOnZero then false else s.sp.enabled) = (s.sp.enabled && !s.ac.offOnZero) := by
    cases s.ac.offOnZero <;> simp
  rw [← henabled, setSpeed, driveSpeed, if_pos rfl]

theorem setSpeed_runs {duty : BitVec 16} {s : State} (hd : duty ≠ s.pw.offValue) :
    setSpeed duty s =
      { s with
        pwm := { en := true, duty := duty }
        sp := { s.sp with enabled := true, applied := duty }
        spnPwmCmd := duty } := by
  rw [setSpeed, driveSpeed, if_neg hd]

/-- SetSpeed neither reads nor writes the two result registers. -/
theorem setSpeed_returnsTwo (duty : BitVec 16) (v w : Word) (s : State) :
    setSpeed duty (returnsTwo v w s) = returnsTwo v w (setSpeed duty s) := by
  by_cases hd : duty = s.pw.offValue
  · subst hd
    exact (setSpeed_off (returnsTwo v w s)).trans (congrArg (returnsTwo v w) (setSpeed_off s)).symm
  · exact (setSpeed_runs (s := returnsTwo v w s) hd).trans (congrArg (returnsTwo v w) (setSpeed_runs hd)).symm

/-- Settles O43: the gate, and SetSpeed of the off-sentinel and of every other duty. -/
theorem setSpeedProgramsPwm : Obligations.SetSpeedProgramsPwm := by
  refine ⟨fun _ => rfl, fun s duty hb => ⟨exec_gated_unconfigured rfl hb, fun hc hoff => ?_, fun hc hd => ?_⟩⟩
  · subst hoff
    exact (exec_gated rfl hb hc).trans (congrArg _ (setSpeed_off s))
  · exact (exec_gated rfl hb hc).trans (congrArg _ (setSpeed_runs hd))

/-! ## SET_STATE -/

theorem encode_setState (ccw enable : Bool) (ovr : Byte) : encode (.setState ccw enable ovr) =
    .word (BitVec.ofNat 32 (0x32000000 + (if ccw then 512 else 0) + (if enable then 256 else 0) + ovr.toNat)) := by
  have hccw : ccw.toNat * 2 ^ 9 = if ccw then 512 else 0 := by cases ccw <;> rfl
  have henable : enable.toNat * 2 ^ 8 = if enable then 256 else 0 := by cases enable <;> rfl
  rw [← hccw, ← henable, Nat.add_assoc, Nat.add_assoc, ← Nat.add_assoc (ccw.toNat * 2 ^ 9)]
  rfl

theorem spindleOff_eq (s : State) :
    spindleOff s =
      { s with
        pwm := { s.pwm with en := false }
        sp := { s.sp with enabled := false, applied := s.pw.offValue, effRpm := 0 }
        spnPwmCmd := s.pw.offValue
        result := s.pw.offValue.setWidth 32
        result1 := 0 } := by
  rw [spindleOff, setSpeed_off]
  rfl

/-- `s` with the spindle's direction set. -/
def withDirection (ccw : Bool) (s : State) : State := { s with sp := { s.sp with ccw := ccw } }

/-- Turning the spindle on is COMPUTE_PWM, the direction, then SetSpeed of the duty in RESULT. -/
theorem spindleOn_eq (ccw : Bool) (ovr : Byte) (s : State) :
    spindleOn ccw ovr s =
      setSpeed ((computePwmBody ovr s).result.setWidth 16) (withDirection ccw (computePwmBody ovr s)) := by
  have hduty : (computePwmBody ovr s).result.setWidth 16 = (computePwm s s.arg0 ovr).1 := by
    rw [computePwmBody, returnsTwo_result, zext32, BitVec.setWidth_setWidth_of_le _ (by decide), BitVec.setWidth_eq]
    rfl
  have hstate : withDirection ccw (computePwmBody ovr s) =
      returnsTwo (zext32 (computePwm s s.arg0 ovr).1) (computePwm s s.arg0 ovr).2
        { s with sp := { s.sp with ccw := ccw, effRpm := (computePwm s s.arg0 ovr).2 } } := rfl
  rw [hduty, hstate, setSpeed_returnsTwo]
  rfl

section
variable {s : State}

theorem setStateBody_off (hv : s.ac.varSpeed = true) (ccw : Bool) (ovr : Byte) :
    setStateBody ccw false ovr s = spindleOff s := if_pos hv

theorem setStateBody_on (hv : s.ac.varSpeed = true) (ccw : Bool) (ovr : Byte) :
    setStateBody ccw true ovr s = spindleOn ccw ovr s := if_pos hv

theorem setStateBody_switch (hv : s.ac.varSpeed = false) (ccw enable : Bool) (ovr : Byte) :
    setStateBody ccw enable ovr s = spindleSwitch ccw enable s := if_neg (Bool.eq_false_iff.mp hv)

end

/-- Settles O44: the gate, then the body in each mode, off and on. -/
theorem setStateComposes : Obligations.SetStateComposes := by
  refine ⟨encode_setState, fun s ccw ovr hb => ⟨fun hc enable => exec_gated_unconfigured rfl hb hc,
    fun hc hv => ⟨?_, computePwmBody ovr s, spindleOn ccw ovr s, exec_gated rfl hb hc, ?_, ?_⟩,
    fun hc hv => ⟨?_, ?_⟩⟩⟩
  · exact (exec_gated rfl hb hc).trans (congrArg _ ((setStateBody_off hv ccw ovr).trans (spindleOff_eq s)))
  · exact (exec_gated (i := .setSpeed _) (s := withDirection ccw (computePwmBody ovr s)) rfl hb hc).trans
      (congrArg _ (spindleOn_eq ccw ovr s).symm)
  · exact (exec_gated rfl hb hc).trans (congrArg _ (setStateBody_on hv ccw ovr))
  · exact (exec_gated rfl hb hc).trans (congrArg _ (setStateBody_switch hv ccw false ovr))
  · exact (exec_gated rfl hb hc).trans (congrArg _ (setStateBody_switch hv ccw true ovr))

/-! ## Coolant, the spindle's state, NOP -/

theorem encode_coolantSet (mist flood : Bool) : encode (.coolantSet mist flood) =
    .word (BitVec.ofNat 32 (0x41000000 + (if mist then 2 else 0) + if flood then 1 else 0)) := by
  cases mist <;> cases flood <;> rfl

/-- Two flags in bits 1 and 0 of a word. -/
theorem bitAt_pair (b₁ b₀ : Bool) : bitAt b₁ 1 ||| bitAt b₀ 0 = (if b₁ then 2 else 0) + if b₀ then 1 else 0 := by
  cases b₁ <;> cases b₀ <;> rfl

/-- Three flags in bits 2 to 0 of a word. -/
theorem bitAt_triple (b₂ b₁ b₀ : Bool) : bitAt b₂ 2 ||| bitAt b₁ 1 ||| bitAt b₀ 0 =
    (if b₂ then 4 else 0) + (if b₁ then 2 else 0) + if b₀ then 1 else 0 := by
  cases b₂ <;> cases b₁ <;> cases b₀ <;> rfl

theorem coolantGetBody_eq (s : State) : coolantGetBody s =
    { s with result := (if s.cl.mist then 2 else 0) + if s.cl.flood then 1 else 0 } :=
  congrArg (returns · s) (bitAt_pair s.cl.mist s.cl.flood)

theorem spnGetStateBody_eq (s : State) : spnGetStateBody s =
    { s with result :=
      (if s.pwm.en then 4 else 0) + (if s.sp.ccw then 2 else 0) + if s.sp.enabled then 1 else 0 } :=
  congrArg (returns · s) (bitAt_triple s.pwm.en s.sp.ccw s.sp.enabled)

/-- Settles O48: NOP's refusal, and the four bodies. -/
theorem coolantSpindleStateAndNop : Obligations.CoolantSpindleStateAndNop := by
  refine ⟨encode_coolantSet, rfl, rfl, rfl, fun s hw => exec_command_blocked (i := .nop) rfl hw, fun s hb =>
    ⟨fun mist flood => ?_, ?_, ?_, ?_⟩⟩
  · exact exec_ungated (i := .coolantSet mist flood) rfl rfl hb
  · exact (exec_ungated (i := .coolantGet) rfl rfl hb).trans (congrArg _ (coolantGetBody_eq s))
  · exact (exec_ungated (i := .spnGetState) rfl rfl hb).trans (congrArg _ (spnGetStateBody_eq s))
  · exact exec_ungated (i := .nop) rfl rfl hb

end Sys2Proof.Machine
end

section
/-! The millisecond timer, one step at a time (spec/44_aux.md R279, R280). -/
namespace Sys2Proof.Machine

theorem encode_delayMs (cb : Bool) (ms : BitVec 16) : encode (.delayMs cb ms) =
    .word (BitVec.ofNat 32 (0x43000000 + (if cb then 65536 else 0) + ms.toNat)) := by
  have hcb : cb.toNat * 2 ^ 16 = if cb then 65536 else 0 := by cases cb <;> rfl
  rw [← hcb, Nat.add_assoc]
  rfl

section
variable {s : State}

theorem delayMsBody_stores {cb : Bool} {ms : BitVec 16} (h : ms ≠ 0 ∨ cb = false) :
    delayMsBody cb ms s = { s with dl := { cnt := ms, cb := cb } } :=
  if_neg fun ⟨hms, hcb⟩ => h.elim (absurd hms) fun hcb' => Bool.false_ne_true (hcb'.symm.trans hcb)

theorem delayMsBody_at_once : delayMsBody true 0 s = deliver .delay { s with dl := { cnt := 0, cb := false } } :=
  if_pos ⟨rfl, rfl⟩

theorem msTickEffect_stopped (hstop : s.dl.cnt = 0) : msTickEffect s = s := if_pos hstop

/-- A delay nobody waits for counts to its end in silence. -/
theorem msTickEffect_counts_unwanted (hrun : s.dl.cnt ≠ 0) (hcb : s.dl.cb = false) :
    msTickEffect s = { s with dl := { s.dl with cnt := s.dl.cnt - 1 } } := by
  rw [msTickEffect, if_neg hrun]
  exact if_neg fun ⟨_, hwanted⟩ => Bool.false_ne_true (hcb.symm.trans hwanted)

end

/-- Settles O49: the two cases of DELAY_MS, then a tick with the timer stopped, counting and elapsing. -/
theorem delayTimerSteps : Obligations.DelayTimerSteps := by
  refine ⟨rfl, encode_delayMs, fun s => ⟨fun cb ms hb => ⟨fun h => ?_, ?_⟩, fun hstop => ?_, fun hrun h => ?_,
    fun hc hcb => ?_⟩⟩
  · exact (exec_ungated rfl rfl hb).trans (congrArg _ (delayMsBody_stores h))
  · rintro rfl rfl
    exact (exec_ungated rfl rfl hb).trans (congrArg _ delayMsBody_at_once)
  · exact congrArg _ (msTickEffect_stopped hstop)
  · exact congrArg _ (h.elim (msTickEffect_counts hrun) (msTickEffect_counts_unwanted hrun))
  · exact congrArg _ (msTickEffect_elapses hc hcb)

end Sys2Proof.Machine
end

section
/-! CFG_APPLY: its two refusals and the configuration it writes (spec/44_aux.md R270, R271, R273). -/
namespace Sys2Proof.Machine

section
variable {s : State}

theorem cfgApplyBody_busy (hp : s.pe.state ≠ .idle) : cfgApplyBody s = raise .cfgBusy s := if_pos hp

theorem cfgApplyBody_invalid (hp : s.pe.state = .idle) (hv : cfgValid s = false) :
    cfgApplyBody s = raise .cfgInvalid s := by
  rw [cfgApplyBody, if_neg (not_not.mpr hp), hv]
  rfl

theorem cfgApplyBody_applies (hp : s.pe.state = .idle) (hv : cfgValid s = true) :
    cfgApplyBody s = returns 1 { s with ac := cfgActive s, pw := cfgSpindlePwm s, configured := true } := by
  rw [cfgApplyBody, if_neg (not_not.mpr hp), hv]
  rfl

/-! ## The numbers it writes -/

theorem cfgActive_delayed_iff : (cfgActive s).delayed = true ↔ s.cfg.delayUs ≠ 0 := bne_iff_ne

/-- A duty of an accepted period fits its field. -/
theorem toNat_ofNat_le_cfgPeriod (hv : cfgValid s = true) {d : Nat} (hd : d ≤ cfgPeriod s) :
    (BitVec.ofNat 16 d).toNat = d := by
  obtain ⟨-, -, -, hfits, -⟩ := (cfgValid_iff s).mp hv
  rw [BitVec.toNat_ofNat, Nat.mod_eq_of_lt (by omega)]

theorem cfgMax_le_cfgPeriod : cfgMax s ≤ cfgPeriod s := (Nat.min_le_right _ _).trans (Nat.sub_le _ _)

theorem toNat_cfg_period (hv : cfgValid s = true) : (cfgSpindlePwm s).period.toNat = cfgPeriod s :=
  toNat_ofNat_le_cfgPeriod hv le_rfl

theorem toNat_cfg_maxValue (hv : cfgValid s = true) : (cfgSpindlePwm s).maxValue.toNat = cfgMax s :=
  toNat_ofNat_le_cfgPeriod hv cfgMax_le_cfgPeriod

theorem toNat_cfg_minValue (hv : cfgValid s = true) : (cfgSpindlePwm s).minValue.toNat = cfgMin s :=
  toNat_ofNat_le_cfgPeriod hv ((cfgMin_le_max s).trans cfgMax_le_cfgPeriod)

theorem toNat_cfg_gnum (hv : cfgValid s = true) :
    (cfgSpindlePwm s).gnum.toNat = (cfgSpindlePwm s).maxValue.toNat - (cfgSpindlePwm s).minValue.toNat := by
  rw [toNat_cfg_maxValue hv, toNat_cfg_minValue hv]
  exact toNat_ofNat_le_cfgPeriod hv ((Nat.sub_le _ _).trans cfgMax_le_cfgPeriod)

end

/-- Settles O46: busy, then invalid, then the whole configuration, whose numbers fit their fields. -/
theorem configurationApplies : Obligations.ConfigurationApplies := by
  refine ⟨rfl, fun s hpar hb => ⟨fun hbusy => ?_, ?_⟩⟩
  · exact (exec_ungated rfl rfl hb).trans (congrArg _ (cfgApplyBody_busy hbusy))
  rintro _ _ rfl rfl
  refine ⟨fun hidle hfails => ?_, fun hidle hpulse hfreq hper hper' hmin hmax hpos => ?_⟩
  · have hv : cfgValid s = false := Bool.eq_false_iff.mpr (mt (cfgValid_iff s).mp hfails)
    exact (exec_ungated rfl rfl hb).trans (congrArg _ (cfgApplyBody_invalid hidle hv))
  · have hv : cfgValid s = true := (cfgValid_iff s).mpr ⟨hpulse, hfreq, hper, hper', hmin, hmax, hpos⟩
    obtain ⟨-, -, -, -, -, ⟨-, hticks⟩, -⟩ := s.par.valid_iff.mp hpar
    exact ⟨_, (exec_ungated rfl rfl hb).trans (congrArg _ (cfgApplyBody_applies hidle hv)), rfl,
      ⟨rfl, rfl, rfl, rfl, rfl, rfl, rfl, rfl, rfl, rfl⟩,
      ⟨toNat_us_ticks hticks _, toNat_us_ticks hticks _, cfgActive_delayed_iff, rfl, rfl⟩,
      ⟨rfl, rfl, rfl, rfl⟩,
      ⟨toNat_cfg_period hv, rfl, toNat_cfg_maxValue hv, toNat_cfg_minValue hv, toNat_cfg_gnum hv, toNat_cfgGden s⟩⟩

end Sys2Proof.Machine
end

section
/-! What a step leaves of its callback: the trace, the pending bits and the two latches (60_exceptions.md R296). -/
namespace Sys2Proof.Machine

theorem write_ipr {r : Reg} (h : r ≠ .ipr) (v : Word) (s : State) : (r.write v s).ipr = s.ipr := by
  cases r with
  | ipr => exact absurd rfl h
  | _ => rfl

/-- Of the fields a callback leaves its mark in, a register write can change the pending bits only. -/
theorem write_callbackFields {r : Reg} (h : r ≠ .ipr) (v : Word) (s : State) :
    callbackFields (r.write v s) = callbackFields s := by
  rw [write_frame, write_ipr h]
  rfl

/-- What a step of any instruction but a write to IPR does to the callback fields: nothing, or one delivery, whose
argument is the state as it is after the step. -/
theorem exec_callbackFields {i : Instr} {s t : State} (h : exec i s = .next t) (hi : ∀ v, i ≠ .wr 0x1C v) :
    callbackFields t = callbackFields s ∨
      ∃ c : Callback, callbackFields t = callbackFields (deliver c s) ∧ c.reads t := by
  cases exec_answers h with
  | refused => exact .inl rfl
  | badRead => exact .inl rfl
  | read => exact .inl rfl
  | wrote a v r hw hr =>
    have hne : r ≠ .ipr := by
      rintro rfl
      exact hi v (hw.trans (by rw [addr_of_ofAddr hr]; rfl))
    exact .inl (write_callbackFields hne v s)
  | ran j => exact (effect_does j s).callbacks

/-- The callback fields agree exactly if the trace, the pending bits and the two latches do. -/
theorem callbackFields_eq_iff {s t : State} :
    callbackFields t = callbackFields s ↔
      t.cbTrace = s.cbTrace ∧ t.ipr = s.ipr ∧ t.limitEvt = s.limitEvt ∧ t.controlEvt = s.controlEvt := by
  simp only [callbackFields, Prod.mk.injEq]

/-- Settles O51: a delivery is read off callback by callback; the two synchronous ones set no pending bit. -/
theorem callbackDelivery : Obligations.CallbackDelivery := by
  intro i s t h hi
  rcases exec_callbackFields h hi with hc | ⟨c, hc, hr⟩
  · exact .inl (callbackFields_eq_iff.mp hc)
  · obtain ⟨htrace, hipr, hlim, hctl⟩ := callbackFields_eq_iff.mp hc
    right
    cases c with
    | step => exact .inl ⟨htrace, hipr, hlim, hctl⟩
    | limit v => exact .inr (.inl ⟨v, htrace, hipr, hlim, hr, hctl⟩)
    | control v => exact .inr (.inr (.inl ⟨v, htrace, hipr, hctl, hr, hlim⟩))
    | delay => exact .inr (.inr (.inr (.inl ⟨htrace, hipr, hlim, hctl⟩)))
    | rt b handled =>
      exact .inr (.inr (.inr (.inr
        ⟨_, .inr (.inr ⟨b, handled, rfl⟩), htrace, hipr.trans BitVec.or_zero, hlim, hctl⟩)))
    | block cont =>
      have hblock : Callback.block cont = .block true ∨ Callback.block cont = .block false := by
        cases cont with
        | true => exact .inl rfl
        | false => exact .inr rfl
      exact .inr (.inr (.inr (.inr
        ⟨_, hblock.imp_right .inl, htrace, hipr.trans BitVec.or_zero, hlim, hctl⟩)))

end Sys2Proof.Machine
end

section
/-! What a reset pulse leaves unspecified (spec/70_reset_and_hazards.md R332). -/
namespace Sys2Proof.Machine

/-- Within its capacity a buffer filled at reset reads as the bytes that came with the pulse, and as 0 past them. -/
theorem Memory.read_ofBytes_take {cap j : Nat} (hj : j < cap) (bs : List Byte) :
    (ofBytes 0 (bs.take cap)).read j = bs.getD j 0 :=
  calc (ofBytes 0 (bs.take cap)).read j = (ofBytes 0 (bs.take cap)).read (0 + j) := by rw [Nat.zero_add]
    _ = (bs.take cap).getD j unwritten := read_ofBytes 0 j _
    _ = bs.getD j 0 := by rw [List.getD, List.getElem?_take_of_lt hj]; rfl

/-- Settles O60: the pulse answers `resetInput`, whose buffers and drives are made from what came with it. -/
theorem resetTakesUnspecifiedValues : Obligations.ResetTakesUnspecifiedValues := by
  intro s u rest hin
  refine ⟨resetInput u { s with inbox := rest }, step_of_inbox_cons hin, rfl, rfl, fun j hj => ⟨?_, ?_⟩, fun j hj => ?_,
    rfl, rfl, drivenBy_drivesOf _ _ _, drivenBy_drivesOf 4 _ _, rfl⟩
  · exact Memory.read_ofBytes_take hj u.rxData
  · exact Memory.read_ofBytes_take hj u.bkData
  · exact Memory.read_ofBytes_take hj u.txData

end Sys2Proof.Machine
end
